-- ==== Sys2Proof/Config.lean ====
section
/-! DEFINITION. The figures fixed for every PW4120 ("The part at a glance" of spec/00_scope.md and the rules cited).
The manual leaves no value to an implementation and no value of an event open, so this file holds no opaque
constant. -/

namespace Sys2Proof.Config

/-- Message slots of the store (R31, R33). -/
def slotCount : Nat := 2048
/-- The low-water reserve (R36). -/
def lowWater : Nat := 64
/-- Longest index chain (R9). -/
def chainLimit : Nat := 12
/-- Live messages per subscriber (R38). -/
def liveLimit : Nat := 16
/-- Held messages per subscriber (R38, R146). -/
def heldLimit : Nat := 4
/-- Longest body, in characters (R86, R103). -/
def bodyLimit : Nat := 80
/-- Receive FIFO of an intake line (R80). -/
def lineFifo : Nat := 16
/-- Count at which RDY falls (R80). -/
def rdyLimit : Nat := 12
/-- Tick events of the inter-character timer of a line (R89). -/
def interCharacterTicks : Nat := 50
/-- Tick events of the inter-character timer of a return link (R131). -/
def reportTicks : Nat := 3
/-- Report FIFO of a return link (R132). -/
def reportFifo : Nat := 16
/-- Extract FIFO (R163). -/
def extractFifo : Nat := 64
/-- Entries at which the sweep stalls (R161). -/
def sweepStall : Nat := 56
/-- Command queue (R174). -/
def commandQueue : Nat := 4
/-- Response FIFO, places held included (R175). -/
def responseFifo : Nat := 8
/-- Notice queue (R180). -/
def noticeQueue : Nat := 32
/-- Largest balance, ceiling, period charge and count of characters delivered (R4, R68). -/
def unitMax : Nat := 16777215
/-- Largest reserved charge (R59). -/
def chargeMax : Nat := 65535
/-- Largest two-byte count (R68, R129). -/
def countMax : Nat := 65535
/-- Largest subscriber number (R4). -/
def numberMax : Nat := 9999999
/-- Largest pager address (R4). -/
def addressMax : Nat := 1048575
/-- Ticks of a minute (R153, R154). -/
def minuteTicks : Nat := 600
/-- The minute counter counts modulo this (R153). -/
def minuteModulus : Nat := 16777216
/-- The period number counts modulo this (R153). -/
def periodModulus : Nat := 65536
/-- The longest acknowledgement wait, in ticks (R144). -/
def waitMax : Nat := 600

end Sys2Proof.Config
end

