-- ==== Sys2Proof/Word.lean ====
section
/-! DEFINITION. The word types of the PW4120: the bytes of its links, the sixteen-bit zone sets (R184) and the
32-bit tick values (R141). Everything the manual counts rather than shifts or masks is a `Nat`. -/

namespace Sys2Proof

/-- One byte of a link, one character of a line (R79, R171, R187). -/
abbrev Byte := BitVec 8

/-- A set of zones 0 to 15: the bit of value 2^z stands for zone z (R184). -/
abbrev ZoneSet := BitVec 16

/-- A value of the tick counter, which counts modulo 2^32 (R141, R153). -/
abbrev Tick := BitVec 32

end Sys2Proof
end

