-- ==== Sys2Proof/Syntax.lean ====
section
/-! DEFINITION. The commands of the PW4120, one constructor per row of spec/opcode_table.json.

Two kinds of row stand side by side. A HOST COMMAND row (FORMAT ... READ_NOTICES) carries the host tag of its frame
and the parameters of R188, each as wide as the frame gives it, so that a value out of its range can be written and
is refused by the owning rule. An EVENT row (HARDWARE_RESET, EXCHANGE_BEGIN, TICK ...) is a step of the part or a
change at one of its pins; its operands are what the pin or the line brings. -/

namespace Sys2Proof

/-- The two return links (R129). -/
inductive Link where
  | a | b
  deriving DecidableEq, Repr

/-- The parameters of ADD, in the order of R188. -/
structure AddArgs where
  number    : BitVec 24
  address   : BitVec 24
  cls       : Byte
  kind      : Byte
  zones     : ZoneSet
  plan      : Byte
  allowance : BitVec 16
  amount    : BitVec 24
  deriving DecidableEq, Repr

/-- The parameters of ALTER: the naming number and each change the change mask of R188 marks present, in mask order.
A plan change carries its plan code and its balance or ceiling. -/
structure AlterArgs where
  number       : BitVec 24
  newNumber    : Option (BitVec 24) := none
  newAddress   : Option (BitVec 24) := none
  newClass     : Option Byte := none
  newKind      : Option Byte := none
  newZones     : Option ZoneSet := none
  newCeiling   : Option (BitVec 24) := none
  newAllowance : Option (BitVec 16) := none
  newPlan      : Option (Byte × BitVec 24) := none
  deriving DecidableEq, Repr

/-- The parameters of SET TARIFF by its selector (R54, R188): a class row (selectors 0 to 2), the multiplier pair
(selector 3), or a selector that names neither with whatever parameter bytes follow it. -/
inductive TariffArgs where
  | tone    (base : BitVec 16) (free : Byte) (rate : BitVec 16)
  | numeric (base : BitVec 16) (free : Byte) (rate : BitVec 16)
  | alpha   (base : BitVec 16) (free : Byte) (rate : BitVec 16)
  | multipliers (mu md : Byte)
  | other (selector : Byte) (rest : List Byte)
  deriving DecidableEq, Repr

/-- The parameters of SET LINE; the station count byte is the length of `stations` (R188). -/
structure LineArgs where
  line     : Byte
  mode     : Byte
  n        : BitVec 16
  e        : Byte
  parity   : Byte
  stop     : Byte
  wait     : Byte
  stations : List Byte
  deriving DecidableEq, Repr

/-- The parameters of SUBMIT; the body length byte is the length of `body` (R188). -/
structure SubmitArgs where
  number   : BitVec 24
  priority : Byte
  body     : List Byte
  deriving DecidableEq, Repr

/-- The parameters of SET RETURN LINK (R133, R188). -/
structure LinkArgs where
  link   : Byte
  n      : BitVec 16
  e      : Byte
  parity : Byte
  deriving DecidableEq, Repr

/-- The commands, in the order of the table. -/
inductive Instr where
  /-- HARDWARE_RESET (R3): RESETn is asserted. -/
  | hardwareReset
  /-- EXCHANGE_BEGIN (R171): CSn falls. -/
  | exchangeBegin
  /-- STATUS_BYTE_READ_OUT (R172): the eighth bit of the status byte is shifted. -/
  | statusByteReadOut
  /-- EXCHANGE_END (R173): CSn rises; `mosi` is the whole bytes clocked in the exchange, in both directions at once,
  each byte most significant bit first (R171; Machine.mosiBytes). -/
  | exchangeEnd (mosi : List Byte)
  /-- COMMAND_START (R175). -/
  | commandStart
  /-- FORMAT (R11). -/
  | format (tag code : Byte)
  /-- FORMAT_COMPLETION (R12). -/
  | formatCompletion
  /-- ADD (R13, R14). -/
  | add (tag : Byte) (args : AddArgs)
  /-- ALTER (R15 to R17). -/
  | alter (tag : Byte) (args : AlterArgs)
  /-- SUSPEND (R18). -/
  | suspend (tag : Byte) (number : BitVec 24)
  /-- RESUME (R18). -/
  | resume (tag : Byte) (number : BitVec 24)
  /-- RETIRE (R20 to R23). -/
  | retire (tag : Byte) (number : BitVec 24) (mode : Byte)
  /-- FIND_NUMBER (R25). -/
  | findNumber (tag : Byte) (number : BitVec 24)
  /-- FIND_ADDRESS (R25). -/
  | findAddress (tag : Byte) (address : BitVec 24)
  /-- READ_RECORD (R26). -/
  | readRecord (tag : Byte) (index : BitVec 16)
  /-- CANCEL (R43 to R45). -/
  | cancel (tag : Byte) (reference : BitVec 16)
  /-- READ_MESSAGE (R47). -/
  | readMessage (tag : Byte) (reference : BitVec 16)
  /-- TRAFFIC_RESET (R48). -/
  | trafficReset (tag : Byte)
  /-- FLUSH_WALK_STEP (R49). -/
  | flushWalkStep
  /-- SET_TARIFF (R54). -/
  | setTariff (tag : Byte) (args : TariffArgs)
  /-- READ_TARIFF (R55). -/
  | readTariff (tag : Byte)
  /-- ADJUST_BALANCE (R69 to R71); the amount is four bytes of two's complement. -/
  | adjustBalance (tag : Byte) (number : BitVec 24) (amount : BitVec 32)
  /-- SET_LINE (R98). -/
  | setLine (tag : Byte) (args : LineArgs)
  /-- ENABLE_LINE (R99). -/
  | enableLine (tag line : Byte)
  /-- DISABLE_LINE (R100). -/
  | disableLine (tag line : Byte)
  /-- LINE_STATUS (R101). -/
  | lineStatus (tag line : Byte)
  /-- SUBMIT (R103). -/
  | submit (tag : Byte) (args : SubmitArgs)
  /-- SET_ZONES (R114). -/
  | setZones (tag : Byte) (zones : ZoneSet)
  /-- SET_OVERRIDE (R114). -/
  | setOverride (tag : Byte) (zones : ZoneSet) (value : Byte)
  /-- ZONE_STATUS (R115). -/
  | zoneStatus (tag : Byte)
  /-- SET_TRANSMITTER (R121). -/
  | setTransmitter (tag divider : Byte)
  /-- HOLD_DISPATCH (R122). -/
  | holdDispatch (tag value : Byte)
  /-- SET_ARBITER (R126). -/
  | setArbiter (tag mode : Byte)
  /-- DISPATCH_STATUS (R126). -/
  | dispatchStatus (tag : Byte)
  /-- SET_RETURN_LINK (R133). -/
  | setReturnLink (tag : Byte) (args : LinkArgs)
  /-- ENABLE_RETURN_LINK (R134). -/
  | enableReturnLink (tag link : Byte)
  /-- DISABLE_RETURN_LINK (R134). -/
  | disableReturnLink (tag link : Byte)
  /-- SET_RETRY (R149). -/
  | setRetry (tag : Byte) (w0 : BitVec 16) (aMax : Byte) (hold : BitVec 16)
  /-- RETURN_STATUS (R150). -/
  | returnStatus (tag : Byte)
  /-- SET_TIMEBASE (R155). -/
  | setTimebase (tag : Byte) (p : BitVec 16) (e : Byte)
  /-- SET_CLOCK (R156). -/
  | setClock (tag : Byte) (minute : BitVec 24)
  /-- SET_CLOSE (R157). -/
  | setClose (tag : Byte) (minute : BitVec 24) (auto : Byte)
  /-- CLOSE_PERIOD (R158). -/
  | closePeriod (tag : Byte)
  /-- READ_EXTRACT (R167). -/
  | readExtract (tag count : Byte)
  /-- PERIOD_STATUS (R168). -/
  | periodStatus (tag : Byte)
  /-- STATUS (R182). -/
  | status (tag : Byte)
  /-- READ_NOTICES (R181). -/
  | readNotices (tag count : Byte)
  /-- INTAKE_CHARACTER_RECEIVED (R81): the data bits, and the levels sampled at the mark bit, the parity bit and the
  first stop bit (R79; Machine.Line.sampled reads them from the levels on RXD); the line reads the mark bit only when
  POLLED and the parity bit only with parity. -/
  | intakeCharacterReceived (line : Fin 4) (data : Byte) (mark parity stop : Bool)
  /-- CHARACTER_TAKEN (R85, R86). -/
  | characterTaken (line : Fin 4)
  /-- INTER_CHARACTER_TIMER_EXPIRY (R89). -/
  | interCharacterTimerExpiry (line : Fin 4)
  /-- POLL_SENT (R96). -/
  | pollSent (line : Fin 4)
  /-- STATION_WAIT_EXPIRY (R97). -/
  | stationWaitExpiry (line : Fin 4)
  /-- REPLY_COMPLETE (R95). -/
  | replyComplete (line : Fin 4)
  /-- ACCEPTANCE (R91 to R94) of the request the line has made. -/
  | acceptance (line : Fin 4)
  /-- ARBITER_TAKE (R108 to R112). -/
  | arbiterTake
  /-- MOVE_TO_SENDING (R120). -/
  | moveToSending
  /-- FRAME_COMPLETION (R123 to R125). -/
  | frameCompletion
  /-- READY_CHANGE (R120): the level READY takes. -/
  | readyChange (level : Bool)
  /-- REJECT_RISE (R121): the level REJECT takes. -/
  | rejectRise (level : Bool)
  /-- EHOLD_CHANGE (R122): the level EHOLD takes. -/
  | eholdChange (level : Bool)
  /-- ZONE_STATUS_CHANGE (R113): the level one ZST input takes. -/
  | zoneStatusChange (zone : Fin 16) (level : Bool)
  /-- RETURN_CHARACTER_RECEIVED (R130, R131): the data bits and the levels sampled at the parity and the stop bit
  (Machine.Receiver.sampled reads them from the levels on RXD). -/
  | returnCharacterReceived (link : Link) (data : Byte) (parity stop : Bool)
  /-- REPORT_TIMEOUT (R131). -/
  | reportTimeout (link : Link)
  /-- REPORT_TAKEN (R135 to R140). -/
  | reportTaken (link : Link)
  /-- EXPIRY (R143 to R148). -/
  | expiry
  /-- TICK (R154). -/
  | tick
  /-- MINUTE_ADVANCE (R154, R157). -/
  | minuteAdvance
  /-- SWEEP_VISIT (R161). -/
  | sweepVisit
  /-- EXTRACT_WAITER_TURN (R164 to R166). -/
  | extractWaiterTurn
  deriving DecidableEq, Repr

end Sys2Proof
end

