-- ==== Sys2Proof/Decode.lean ====
section
/-! DEFINITION. Decoding. The opcode table gives its rows no bits, so `decodeTableWord` reads no word as a command.
What the part itself decodes is the command frame of the command link (R173, R175, R188): `parseCommand` reads the
code, the host tag and the parameter bytes of a frame, and `commandCode`, `hostTag`, `parameters` and
`commandFrame` write them. -/

namespace Sys2Proof

/-- The rows of spec/opcode_table.json carry no bits: no word spells a command. -/
def decodeTableWord (_nbits _w : Nat) : Option Instr := none

/-! ## Multi-byte numbers, most significant byte first (R184) -/

/-- A two-byte number from its bytes. -/
def join2 (b1 b0 : Byte) : BitVec 16 := b1 ++ b0

/-- A three-byte number from its bytes. -/
def join3 (b2 b1 b0 : Byte) : BitVec 24 := b2 ++ (b1 ++ b0)

/-- A four-byte number from its bytes. -/
def join4 (b3 b2 b1 b0 : Byte) : BitVec 32 := b3 ++ (b2 ++ (b1 ++ b0))

/-- The bytes of a two-byte number. -/
def bytes2 (w : BitVec 16) : List Byte := [w.extractLsb' 8 8, w.extractLsb' 0 8]

/-- The bytes of a three-byte number. -/
def bytes3 (w : BitVec 24) : List Byte := [w.extractLsb' 16 8, w.extractLsb' 8 8, w.extractLsb' 0 8]

/-- The bytes of a four-byte number. -/
def bytes4 (w : BitVec 32) : List Byte :=
  [w.extractLsb' 24 8, w.extractLsb' 16 8, w.extractLsb' 8 8, w.extractLsb' 0 8]

/-- One byte of a counted value. -/
def nat1 (n : Nat) : List Byte := [BitVec.ofNat 8 n]
/-- Two bytes of a counted value. -/
def nat2 (n : Nat) : List Byte := bytes2 (BitVec.ofNat 16 n)
/-- Three bytes of a counted value. -/
def nat3 (n : Nat) : List Byte := bytes3 (BitVec.ofNat 24 n)
/-- Four bytes of a counted value. -/
def nat4 (n : Nat) : List Byte := bytes4 (BitVec.ofNat 32 n)
/-- A flag, mark, indication or level: one byte, 0 or 1 (R189). -/
def flag1 (b : Bool) : List Byte := [if b then 1 else 0]

/-! ## Command codes (8.7) -/

/-- The command code of a host command; none for an event of the part. -/
def Instr.commandCode : Instr → Option Byte
  | .format .. => some 0x10
  | .add .. => some 0x11
  | .alter .. => some 0x12
  | .suspend .. => some 0x13
  | .resume .. => some 0x14
  | .retire .. => some 0x15
  | .findNumber .. => some 0x16
  | .findAddress .. => some 0x17
  | .readRecord .. => some 0x18
  | .cancel .. => some 0x20
  | .readMessage .. => some 0x21
  | .trafficReset .. => some 0x22
  | .setTariff .. => some 0x30
  | .readTariff .. => some 0x31
  | .adjustBalance .. => some 0x32
  | .setLine .. => some 0x40
  | .enableLine .. => some 0x41
  | .disableLine .. => some 0x42
  | .lineStatus .. => some 0x43
  | .submit .. => some 0x44
  | .setZones .. => some 0x50
  | .setOverride .. => some 0x51
  | .zoneStatus .. => some 0x52
  | .setTransmitter .. => some 0x53
  | .holdDispatch .. => some 0x54
  | .setArbiter .. => some 0x55
  | .dispatchStatus .. => some 0x56
  | .setReturnLink .. => some 0x60
  | .enableReturnLink .. => some 0x61
  | .disableReturnLink .. => some 0x62
  | .setRetry .. => some 0x63
  | .returnStatus .. => some 0x64
  | .setTimebase .. => some 0x70
  | .setClock .. => some 0x71
  | .setClose .. => some 0x72
  | .closePeriod .. => some 0x73
  | .readExtract .. => some 0x74
  | .periodStatus .. => some 0x75
  | .status .. => some 0x80
  | .readNotices .. => some 0x81
  | .hardwareReset | .exchangeBegin | .statusByteReadOut | .exchangeEnd _ | .commandStart | .formatCompletion
  | .flushWalkStep | .intakeCharacterReceived .. | .characterTaken _ | .interCharacterTimerExpiry _ | .pollSent _
  | .stationWaitExpiry _ | .replyComplete _ | .acceptance _ | .arbiterTake | .moveToSending | .frameCompletion
  | .readyChange _ | .rejectRise _ | .eholdChange _ | .zoneStatusChange .. | .returnCharacterReceived ..
  | .reportTimeout _ | .reportTaken _ | .expiry | .tick | .minuteAdvance | .sweepVisit | .extractWaiterTurn => none

/-- The host tag a host command carries; 0 for an event of the part, which carries none. -/
def Instr.hostTag : Instr → Byte
  | .format t _ | .add t _ | .alter t _ | .suspend t _ | .resume t _ | .retire t _ _ | .findNumber t _
  | .findAddress t _ | .readRecord t _ | .cancel t _ | .readMessage t _ | .trafficReset t | .setTariff t _
  | .readTariff t | .adjustBalance t _ _ | .setLine t _ | .enableLine t _ | .disableLine t _ | .lineStatus t _
  | .submit t _ | .setZones t _ | .setOverride t _ _ | .zoneStatus t | .setTransmitter t _ | .holdDispatch t _
  | .setArbiter t _ | .dispatchStatus t | .setReturnLink t _ | .enableReturnLink t _ | .disableReturnLink t _
  | .setRetry t _ _ _ | .returnStatus t | .setTimebase t _ _ | .setClock t _ | .setClose t _ _ | .closePeriod t
  | .readExtract t _ | .periodStatus t | .status t | .readNotices t _ => t
  | .hardwareReset | .exchangeBegin | .statusByteReadOut | .exchangeEnd _ | .commandStart | .formatCompletion
  | .flushWalkStep | .intakeCharacterReceived .. | .characterTaken _ | .interCharacterTimerExpiry _ | .pollSent _
  | .stationWaitExpiry _ | .replyComplete _ | .acceptance _ | .arbiterTake | .moveToSending | .frameCompletion
  | .readyChange _ | .rejectRise _ | .eholdChange _ | .zoneStatusChange .. | .returnCharacterReceived ..
  | .reportTimeout _ | .reportTaken _ | .expiry | .tick | .minuteAdvance | .sweepVisit | .extractWaiterTurn => 0

/-! ## Parameter bytes (R188) -/

/-- The change mask of ALTER (R188). -/
def AlterArgs.mask (a : AlterArgs) : Byte :=
  (if a.newNumber.isSome then 0x01 else 0) ||| (if a.newAddress.isSome then 0x02 else 0) |||
  (if a.newClass.isSome then 0x04 else 0) ||| (if a.newKind.isSome then 0x08 else 0) |||
  (if a.newZones.isSome then 0x10 else 0) ||| (if a.newCeiling.isSome then 0x20 else 0) |||
  (if a.newAllowance.isSome then 0x40 else 0) ||| (if a.newPlan.isSome then 0x80 else 0)

/-- The bytes of a change, when it is present. -/
def present {α : Type} (bytes : α → List Byte) : Option α → List Byte
  | none => []
  | some v => bytes v

/-- The parameter bytes of ALTER: number, change mask and the changes in mask order. -/
def AlterArgs.bytes (a : AlterArgs) : List Byte :=
  bytes3 a.number ++ a.mask :: (present bytes3 a.newNumber ++ present bytes3 a.newAddress ++
    present (fun b => [b]) a.newClass ++ present (fun b => [b]) a.newKind ++ present bytes2 a.newZones ++
    present bytes3 a.newCeiling ++ present bytes2 a.newAllowance ++ present (fun p => p.1 :: bytes3 p.2) a.newPlan)

/-- The parameter bytes of SET TARIFF. -/
def TariffArgs.bytes : TariffArgs → List Byte
  | .tone base free rate => 0 :: (bytes2 base ++ free :: bytes2 rate)
  | .numeric base free rate => 1 :: (bytes2 base ++ free :: bytes2 rate)
  | .alpha base free rate => 2 :: (bytes2 base ++ free :: bytes2 rate)
  | .multipliers mu md => [3, mu, md]
  | .other selector rest => selector :: rest

/-- The parameter bytes of a host command, in the order of R188; none for an event of the part. -/
def Instr.parameters : Instr → List Byte
  | .format _ code => [code]
  | .add _ a => bytes3 a.number ++ bytes3 a.address ++ [a.cls, a.kind] ++ bytes2 a.zones ++ a.plan ::
      (bytes2 a.allowance ++ bytes3 a.amount)
  | .alter _ a => a.bytes
  | .suspend _ number | .resume _ number | .findNumber _ number => bytes3 number
  | .retire _ number mode => bytes3 number ++ [mode]
  | .findAddress _ address => bytes3 address
  | .readRecord _ index => bytes2 index
  | .cancel _ reference | .readMessage _ reference => bytes2 reference
  | .setTariff _ a => a.bytes
  | .adjustBalance _ number amount => bytes3 number ++ bytes4 amount
  | .setLine _ a => a.line :: a.mode :: (bytes2 a.n ++ a.e :: a.parity :: a.stop :: a.wait ::
      BitVec.ofNat 8 a.stations.length :: a.stations)
  | .enableLine _ line | .disableLine _ line | .lineStatus _ line => [line]
  | .submit _ a => bytes3 a.number ++ a.priority :: BitVec.ofNat 8 a.body.length :: a.body
  | .setZones _ zones => bytes2 zones
  | .setOverride _ zones value => bytes2 zones ++ [value]
  | .setTransmitter _ divider => [divider]
  | .holdDispatch _ value => [value]
  | .setArbiter _ mode => [mode]
  | .setReturnLink _ a => a.link :: (bytes2 a.n ++ [a.e, a.parity])
  | .enableReturnLink _ link | .disableReturnLink _ link => [link]
  | .setRetry _ w0 aMax hold => bytes2 w0 ++ aMax :: bytes2 hold
  | .setTimebase _ p e => bytes2 p ++ [e]
  | .setClock _ minute => bytes3 minute
  | .setClose _ minute auto => bytes3 minute ++ [auto]
  | .readExtract _ count | .readNotices _ count => [count]
  | .trafficReset _ | .closePeriod _ | .readTariff _ | .zoneStatus _ | .dispatchStatus _ | .returnStatus _
  | .periodStatus _ | .status _ => []
  | .hardwareReset | .exchangeBegin | .statusByteReadOut | .exchangeEnd _ | .commandStart | .formatCompletion
  | .flushWalkStep | .intakeCharacterReceived .. | .characterTaken _ | .interCharacterTimerExpiry _ | .pollSent _
  | .stationWaitExpiry _ | .replyComplete _ | .acceptance _ | .arbiterTake | .moveToSending | .frameCompletion
  | .readyChange _ | .rejectRise _ | .eholdChange _ | .zoneStatusChange .. | .returnCharacterReceived ..
  | .reportTimeout _ | .reportTaken _ | .expiry | .tick | .minuteAdvance | .sweepVisit | .extractWaiterTurn => []

/-- The whole frame of a host command as the host clocks it on MOSI: length, code, host tag, parameters (R188);
empty for an event of the part. -/
def Instr.commandFrame (i : Instr) : List Byte :=
  match i.commandCode with
  | none => []
  | some code => BitVec.ofNat 8 (2 + i.parameters.length) :: code :: i.hostTag :: i.parameters

/-! ## Reading a frame -/

/-- What the CLU's two checks of R175 make of a frame. -/
inductive CommandParse where
  /-- Check 1 fails: the code names no command. -/
  | unknownCommand
  /-- Check 2 fails: the length does not fit the code's layout. -/
  | lengthError
  /-- Both pass: the command to be taken by its owning block. -/
  | command (i : Instr)
  deriving DecidableEq, Repr

/-- Reads one change of ALTER, when its mask bit is set, from the front of the bytes left. -/
def takeChange {α : Type} (set : Bool) (read : List Byte → Option (α × List Byte)) (bs : List Byte) :
    Option (Option α × List Byte) :=
  if set then (read bs).map fun r => (some r.1, r.2) else some (none, bs)

/-- Reads one byte. -/
def read1 : List Byte → Option (Byte × List Byte)
  | b :: bs => some (b, bs)
  | _ => none

/-- Reads a two-byte number. -/
def read2 : List Byte → Option (BitVec 16 × List Byte)
  | b1 :: b0 :: bs => some (join2 b1 b0, bs)
  | _ => none

/-- Reads a three-byte number. -/
def read3 : List Byte → Option (BitVec 24 × List Byte)
  | b2 :: b1 :: b0 :: bs => some (join3 b2 b1 b0, bs)
  | _ => none

/-- Reads a plan code and its amount. -/
def readPlan : List Byte → Option ((Byte × BitVec 24) × List Byte)
  | p :: b2 :: b1 :: b0 :: bs => some ((p, join3 b2 b1 b0), bs)
  | _ => none

/-- The changes of ALTER that its mask marks present, in mask order; none when the bytes do not fit them exactly. -/
def readAlter (number : BitVec 24) (mask : Byte) (bs : List Byte) : Option AlterArgs := do
  let (newNumber, bs) ← takeChange (mask.getLsbD 0) read3 bs
  let (newAddress, bs) ← takeChange (mask.getLsbD 1) read3 bs
  let (newClass, bs) ← takeChange (mask.getLsbD 2) read1 bs
  let (newKind, bs) ← takeChange (mask.getLsbD 3) read1 bs
  let (newZones, bs) ← takeChange (mask.getLsbD 4) read2 bs
  let (newCeiling, bs) ← takeChange (mask.getLsbD 5) read3 bs
  let (newAllowance, bs) ← takeChange (mask.getLsbD 6) read2 bs
  let (newPlan, bs) ← takeChange (mask.getLsbD 7) readPlan bs
  if bs.isEmpty then
    some { number, newNumber, newAddress, newClass, newKind, newZones, newCeiling, newAllowance, newPlan }
  else none

/-- The parameters of SET TARIFF (R188): a class row needs 6 bytes, the multiplier pair 3, and a selector that names
neither passes with 3 or more. -/
def readTariffArgs : List Byte → Option TariffArgs
  | selector :: rest =>
    if selector = 0 then
      match rest with
      | [b1, b0, f, r1, r0] => some (.tone (join2 b1 b0) f (join2 r1 r0))
      | _ => none
    else if selector = 1 then
      match rest with
      | [b1, b0, f, r1, r0] => some (.numeric (join2 b1 b0) f (join2 r1 r0))
      | _ => none
    else if selector = 2 then
      match rest with
      | [b1, b0, f, r1, r0] => some (.alpha (join2 b1 b0) f (join2 r1 r0))
      | _ => none
    else if selector = 3 then
      match rest with
      | [mu, md] => some (.multipliers mu md)
      | _ => none
    else if 2 ≤ rest.length then some (.other selector rest)
    else none
  | [] => none

/-- The commands whose frame has no parameters. -/
def readNone (i : Instr) : List Byte → Option Instr
  | [] => some i
  | _ => none

/-- The commands whose frame has one parameter byte. -/
def readByte (f : Byte → Instr) : List Byte → Option Instr
  | [b] => some (f b)
  | _ => none

/-- The commands whose frame has one two-byte parameter. -/
def readTwo (f : BitVec 16 → Instr) : List Byte → Option Instr
  | [b1, b0] => some (f (join2 b1 b0))
  | _ => none

/-- The commands whose frame has one three-byte parameter. -/
def readThree (f : BitVec 24 → Instr) : List Byte → Option Instr
  | [b2, b1, b0] => some (f (join3 b2 b1 b0))
  | _ => none

/-- The commands whose frame has a three-byte parameter and a byte. -/
def readThreeByte (f : BitVec 24 → Byte → Instr) : List Byte → Option Instr
  | [b2, b1, b0, b] => some (f (join3 b2 b1 b0) b)
  | _ => none

/-- The parameters of ADD. -/
def readAdd (tag : Byte) : List Byte → Option Instr
  | [n2, n1, n0, a2, a1, a0, cls, kind, z1, z0, plan, l1, l0, m2, m1, m0] =>
    some (.add tag { number := join3 n2 n1 n0, address := join3 a2 a1 a0, cls, kind, zones := join2 z1 z0, plan,
                     allowance := join2 l1 l0, amount := join3 m2 m1 m0 })
  | _ => none

/-- The parameters of SET LINE: nine bytes and as many station bytes as the station count byte gives. -/
def readLineArgs : List Byte → Option LineArgs
  | line :: mode :: n1 :: n0 :: e :: parity :: stop :: wait :: count :: stations =>
    if stations.length = count.toNat then
      some { line, mode, n := join2 n1 n0, e, parity, stop, wait, stations }
    else none
  | _ => none

/-- The parameters of SUBMIT: five bytes and as many body bytes as the body length byte gives. -/
def readSubmitArgs : List Byte → Option SubmitArgs
  | n2 :: n1 :: n0 :: priority :: count :: body =>
    if body.length = count.toNat then some { number := join3 n2 n1 n0, priority, body } else none
  | _ => none

/-- The command of a code from its parameter bytes: the outer option is check 1 of R175, the inner one check 2. -/
def readCommand (code tag : Byte) (ps : List Byte) : Option (Option Instr) :=
  match code.toNat with
  | 0x10 => some (readByte (.format tag) ps)
  | 0x11 => some (readAdd tag ps)
  | 0x12 => some (match ps with
    | b2 :: b1 :: b0 :: mask :: bs => (readAlter (join3 b2 b1 b0) mask bs).map (.alter tag)
    | _ => none)
  | 0x13 => some (readThree (.suspend tag) ps)
  | 0x14 => some (readThree (.resume tag) ps)
  | 0x15 => some (readThreeByte (.retire tag) ps)
  | 0x16 => some (readThree (.findNumber tag) ps)
  | 0x17 => some (readThree (.findAddress tag) ps)
  | 0x18 => some (readTwo (.readRecord tag) ps)
  | 0x20 => some (readTwo (.cancel tag) ps)
  | 0x21 => some (readTwo (.readMessage tag) ps)
  | 0x22 => some (readNone (.trafficReset tag) ps)
  | 0x30 => some ((readTariffArgs ps).map (.setTariff tag))
  | 0x31 => some (readNone (.readTariff tag) ps)
  | 0x32 => some (match ps with
    | [b2, b1, b0, a3, a2, a1, a0] => some (.adjustBalance tag (join3 b2 b1 b0) (join4 a3 a2 a1 a0))
    | _ => none)
  | 0x40 => some ((readLineArgs ps).map (.setLine tag))
  | 0x41 => some (readByte (.enableLine tag) ps)
  | 0x42 => some (readByte (.disableLine tag) ps)
  | 0x43 => some (readByte (.lineStatus tag) ps)
  | 0x44 => some ((readSubmitArgs ps).map (.submit tag))
  | 0x50 => some (readTwo (.setZones tag) ps)
  | 0x51 => some (match ps with
    | [z1, z0, value] => some (.setOverride tag (join2 z1 z0) value)
    | _ => none)
  | 0x52 => some (readNone (.zoneStatus tag) ps)
  | 0x53 => some (readByte (.setTransmitter tag) ps)
  | 0x54 => some (readByte (.holdDispatch tag) ps)
  | 0x55 => some (readByte (.setArbiter tag) ps)
  | 0x56 => some (readNone (.dispatchStatus tag) ps)
  | 0x60 => some (match ps with
    | [link, n1, n0, e, parity] => some (.setReturnLink tag { link, n := join2 n1 n0, e, parity })
    | _ => none)
  | 0x61 => some (readByte (.enableReturnLink tag) ps)
  | 0x62 => some (readByte (.disableReturnLink tag) ps)
  | 0x63 => some (match ps with
    | [w1, w0, aMax, h1, h0] => some (.setRetry tag (join2 w1 w0) aMax (join2 h1 h0))
    | _ => none)
  | 0x64 => some (readNone (.returnStatus tag) ps)
  | 0x70 => some (match ps with
    | [p1, p0, e] => some (.setTimebase tag (join2 p1 p0) e)
    | _ => none)
  | 0x71 => some (readThree (.setClock tag) ps)
  | 0x72 => some (readThreeByte (.setClose tag) ps)
  | 0x73 => some (readNone (.closePeriod tag) ps)
  | 0x74 => some (readByte (.readExtract tag) ps)
  | 0x75 => some (readNone (.periodStatus tag) ps)
  | 0x80 => some (readNone (.status tag) ps)
  | 0x81 => some (readByte (.readNotices tag) ps)
  | _ => none

/-- The two checks of R175 on a frame that is not short. -/
def parseCommand (code tag : Byte) (ps : List Byte) : CommandParse :=
  match readCommand code tag ps with
  | none => .unknownCommand
  | some none => .lengthError
  | some (some i) => .command i

end Sys2Proof
end

