-- ==== Sys2Proof/Machine/State.lean ====
section
/-! DEFINITION. The state of the PW4120 as plain data, block by block (the block table of spec/00_scope.md), and its
value after reset.

A FREE record is a record index that `Stu.records` does not list, and a FREE slot a slot with no message, so the
fields that are "Absent" in a FREE record or slot (R4, R29) do not exist there. A chain of an index is the list of its
record indexes from the head; the record's link to the next one is a view of it (`numberLink`, `addressLink`,
`freeLink` in Machine/Ops.lean). -/

namespace Sys2Proof.Machine
open Sys2Proof

/-- A sparse table: pairs of a key and a value, keys strictly rising. -/
abbrev Sparse (α : Type) := List (Nat × α)

/-! ## The Subscriber Table Unit -/

/-- R1. -/
inductive TableState where
  | unformatted | formatting | ready
  deriving DecidableEq, Repr

/-- The state of a record that is not FREE (R4). -/
inductive RecordState where
  | active | suspended | retiring
  deriving DecidableEq, Repr

/-- Service classes (R4). -/
inductive ServiceClass where
  | tone | numeric | alpha
  deriving DecidableEq, Repr

/-- Pager kinds (R4). -/
inductive PagerKind where
  | oneWay | twoWay
  deriving DecidableEq, Repr

/-- Presence (R6). -/
inductive Presence where
  | unknown
  | here (zone : Nat)
  | away
  deriving DecidableEq, Repr

/-- The plan with the amount it alone carries: the balance of PREPAID, the ceiling of ACCOUNT (R4). -/
inductive Plan where
  | prepaid (balance : Nat)
  | account (ceiling : Nat)
  deriving DecidableEq, Repr

/-- A record that is not FREE (R4). -/
structure Record where
  state     : RecordState
  number    : Nat
  address   : Nat
  cls       : ServiceClass
  kind      : PagerKind
  zones     : ZoneSet
  presence  : Presence
  plan      : Plan
  pending   : Nat
  charge    : Nat
  saturated : Bool
  allowance : Nat
  used      : Nat
  delivered : Nat
  chars     : Nat
  periodTag : Nat
  live      : List Nat
  held      : List Nat
  nextTag   : Nat
  closing   : Bool
  deriving DecidableEq, Repr

/-- A last-in, first-out list of numbers: those pushed since the list was built, newest first, and then every number
from `fresh` up to `limit` (R10, R33: a completed FORMAT links 0, 1, 2 and so on). -/
structure FreeList where
  pushed : List Nat
  fresh  : Nat
  limit  : Nat
  deriving DecidableEq, Repr

/-- The Subscriber Table Unit (R1 to R10). -/
structure Stu where
  state       : TableState
  capacity    : Nat
  free        : FreeList
  freeCount   : Nat
  records     : Sparse Record
  numberIndex : Sparse (List Nat)
  addressIndex : Sparse (List Nat)
  /-- The response place of the FORMAT in progress (R12). -/
  formatPlace : Option Nat
  deriving DecidableEq, Repr

/-! ## The Message Store Unit -/

/-- Where a message came from (R29). -/
inductive Source where
  | line (n : Fin 4)
  | commandLink
  deriving DecidableEq, Repr

/-- Priorities (R29). -/
inductive Priority where
  | urgent | normal | deferred
  deriving DecidableEq, Repr

/-- The dispatch queues (R106). -/
inductive QueueName where
  | urgent | normal | deferred | retry
  deriving DecidableEq, Repr

/-- The state of a slot that is not FREE, with the deadline that AWAITING and HELD alone carry (R29, R31). -/
inductive Place where
  | queued | staged | sending
  | awaiting (deadline : Tick)
  | held (deadline : Tick)
  deriving DecidableEq, Repr

/-- The message in a slot that is not FREE (R29). The reservation period is present when the allowance-used flag is
set, so one option holds both (R62). -/
structure Message where
  place         : Place
  owner         : Nat
  tag           : Nat
  source        : Source
  cls           : ServiceClass
  kind          : PagerKind
  priority      : Priority
  body          : List Byte
  charge        : Nat
  allowanceUsed : Option Nat
  attempts      : Nat
  aired         : Bool
  released      : Bool
  origin        : QueueName
  ackPending    : Bool
  cancelPending : Bool
  deriving DecidableEq, Repr

/-- A slot: its reuse count, kept while FREE, and its message (R29, R30). -/
structure Slot where
  reuse   : Nat
  message : Option Message
  deriving DecidableEq, Repr

/-- A TRAFFIC RESET in progress (R48 to R51). -/
structure TrafficReset where
  /-- The response place of the command. -/
  place   : Nat
  cursor  : Nat
  flushed : Nat
  freed   : Nat
  deriving DecidableEq, Repr

/-- The Message Store Unit (R29 to R36). A slot number not listed is FREE with reuse count 0. -/
structure Msu where
  slots     : Sparse Slot
  free      : FreeList
  freeCount : Nat
  lowWater  : Bool
  flush     : Option TrafficReset
  deriving DecidableEq, Repr

/-! ## The Charge Unit -/

/-- A row of the tariff (R53). -/
structure TariffRow where
  base : Nat
  free : Nat
  rate : Nat
  deriving DecidableEq, Repr

/-- The tariff (R53). -/
structure Chu where
  tone    : TariffRow
  numeric : TariffRow
  alpha   : TariffRow
  mu      : Nat
  md      : Nat
  deriving DecidableEq, Repr

/-! ## The Intake Line Units -/

/-- R76. -/
inductive LineState where
  | disabled | idle | assembling | awaitingAcceptance | replying | down
  deriving DecidableEq, Repr

/-- R76. -/
inductive LineMode where
  | direct | polled
  deriving DecidableEq, Repr

/-- R76, R129. -/
inductive Parity where
  | none | even | odd
  deriving DecidableEq, Repr

/-- A character in a receive FIFO with its bad mark and gap mark (R76, R81, R82). -/
structure RxChar where
  data : Byte
  bad  : Bool
  gap  : Bool
  deriving DecidableEq, Repr

/-- The frame in assembly (R76, R85, R86): the characters between the lead and the terminator, the count of characters
taken with the lead among them, the running sum of the kind through the terminator, the spoiled mark, and whether the
terminator has been taken. The parsed fields are views of `chars` (Machine/Lines.lean). -/
structure Frame where
  chars      : List Byte
  count      : Nat
  sum        : Nat
  spoiled    : Bool
  terminated : Bool
  deriving DecidableEq, Repr

/-- An acceptance request (R90): subscriber number, priority and body. -/
structure Submission where
  number   : Nat
  priority : Priority
  body     : List Byte
  deriving DecidableEq, Repr

/-- One Intake Line Unit (R76). A timer is `none` while stopped, else the tick events it has counted. -/
structure Line where
  state          : LineState
  mode           : LineMode
  n              : Nat
  e              : Nat
  parity         : Parity
  stop           : Nat
  stations       : List Nat
  wait           : Nat
  /-- The current station, as a position in the station list counted from 0. -/
  current        : Nat
  fifo           : List RxChar
  breakRun       : Nat
  frame          : Option Frame
  /-- The acceptance request made, while AWAITING ACCEPTANCE (R90). -/
  request        : Option Submission
  interTimer     : Option Nat
  stationTimer   : Option Nat
  reply          : List Byte
  /-- The stations whose poll address characters are being sent or wait for TXD, oldest first (R96). -/
  polls          : List Nat
  disablePending : Bool
  /-- The RDY output (R80). -/
  rdy            : Bool
  deriving DecidableEq, Repr

/-- One value for each intake line. -/
structure Four (α : Type) where
  l0 : α
  l1 : α
  l2 : α
  l3 : α
  deriving DecidableEq, Repr

/-! ## The Dispatch Unit -/

/-- R106. -/
inductive ArbiterMode where
  | fixed | rotating
  deriving DecidableEq, Repr

/-- R106. -/
inductive Override where
  | follow | forceIn | forceOut
  deriving DecidableEq, Repr

/-- The four dispatch queues, oldest at the head (R106). -/
structure Queues where
  urgent   : List Nat
  normal   : List Nat
  deferred : List Nat
  retry    : List Nat
  deriving DecidableEq, Repr

/-- The transmitter frame built at staging (R111, R186). -/
structure TxFrame where
  zones   : ZoneSet
  address : Nat
  tag     : Nat
  cls     : ServiceClass
  ack     : Bool
  attempt : Nat
  body    : List Byte
  deriving DecidableEq, Repr

/-- The staging buffer's slot with its frame, which holds the zone set and the attempt number (R106). -/
structure Staged where
  slot  : Nat
  frame : TxFrame
  deriving DecidableEq, Repr

/-- The sending buffer's slot with its frame and the divider it is sent at (R106, R121). -/
structure Sending where
  slot    : Nat
  frame   : TxFrame
  divider : Nat
  deriving DecidableEq, Repr

/-- The Dispatch Unit (R106). -/
structure Dsu where
  queues    : Queues
  mode      : ArbiterMode
  rotation  : List QueueName
  staging   : Option Staged
  sending   : Option Sending
  refusal   : Bool
  /-- The override of zone z at position z, 16 of them. -/
  overrides : List Override
  service   : ZoneSet
  outage    : Bool
  hold      : Bool
  divider   : Nat
  deriving DecidableEq, Repr

/-! ## The Return Link Receivers and the Acknowledgement and Retry Unit -/

/-- R129. -/
inductive LinkState where
  | disabled | hunting | assembling
  deriving DecidableEq, Repr

/-- A report (R129). -/
inductive Report where
  | ack (address tag zone : Nat)
  | register (address zone : Nat)
  | leave (address zone : Nat)
  deriving DecidableEq, Repr

/-- One Return Link Receiver (R129). -/
structure Receiver where
  state    : LinkState
  n        : Nat
  e        : Nat
  parity   : Parity
  /-- The characters of the report in assembly, lead included. -/
  chars    : List Byte
  spoiled  : Bool
  timer    : Option Nat
  fifo     : List Report
  episode  : Bool
  dropped  : Nat
  rejected : Nat
  deriving DecidableEq, Repr

/-- The Acknowledgement and Retry Unit (R142, R149). -/
structure Aru where
  timed : List Nat
  w0    : Nat
  aMax  : Nat
  hold  : Nat
  deriving DecidableEq, Repr

/-! ## The Period Unit -/

/-- R153. -/
inductive SweepState where
  | idle | sweeping | stalled
  deriving DecidableEq, Repr

/-- An extract entry (R160, R192). -/
structure Entry where
  number    : Nat
  index     : Nat
  address   : Nat
  plan      : Plan
  period    : Nat
  delivered : Nat
  within    : Nat
  chars     : Nat
  charge    : Nat
  saturated : Bool
  pending   : Nat
  closing   : Bool
  deriving DecidableEq, Repr

/-- A host command that can wait for extract space, with its parameters, for it is taken anew whole (R165). -/
inductive HeldCommand where
  | submit (args : SubmitArgs)
  | alter (args : AlterArgs)
  | retire (number : BitVec 24) (mode : Byte)
  | cancel (reference : BitVec 16)
  | adjust (number : BitVec 24) (amount : BitVec 32)
  deriving DecidableEq, Repr

/-- The event that a closing entry's write ends (R166). -/
inductive Holder where
  /-- Nothing is held; whether a flush of TRAFFIC RESET began the freeing (R50, R51). -/
  | alone (byReset : Bool)
  /-- A RETIRE or CANCEL, whose response these are. -/
  | answer (place : Nat) (params : List Byte)
  /-- The report at the head of a return link. -/
  | report (l : Link)
  /-- An expiry. -/
  | expiry
  /-- The TRAFFIC RESET flush walk. -/
  | walk
  deriving DecidableEq, Repr

/-- A waiter for extract space (R165). -/
inductive Waiter where
  | line (n : Fin 4)
  | command (place : Nat) (c : HeldCommand)
  | arbiter
  | completion
  | report (l : Link)
  | expiry
  | walk
  | closing (index : Nat) (holder : Holder)
  deriving DecidableEq, Repr

/-- The Period Unit (R153). -/
structure Pdu where
  p          : Nat
  e          : Nat
  /-- The length of the tick period in progress, in REFCLK periods (R154, R155). -/
  tickLength : Nat
  tick       : Tick
  tickMinute : Nat
  minute     : Nat
  closeAt    : Nat
  auto       : Bool
  period     : Nat
  sweep      : SweepState
  cursor     : Nat
  entries    : Nat
  extract    : List Entry
  waiters    : List Waiter
  deriving DecidableEq, Repr

/-! ## The Command Link Unit -/

/-- The result names (8.7). -/
inductive Result where
  | ok | notFound | unknownCommand | lengthError | badField | tableNotReady | trafficPresent | unknownSubscriber
  | numberInUse | addressInUse | chainFull | tableFull | addressBusy | classBusy | planBusy | wrongPlan
  | staleReference | resetBusy | serviceClosed | notInService | bodyInvalid | subscriberFull | storeFull | noCredit
  | overCeiling | lineActive | pinsInUse | linkActive | sweepBusy
  deriving DecidableEq, Repr

/-- A response frame (R177, R189): code and host tag as received, result, parameter bytes. -/
structure Response where
  code   : Byte
  tag    : Byte
  result : Result
  params : List Byte
  deriving DecidableEq, Repr

/-- A frame in the command queue (R173, R174). -/
structure CommandFrame where
  code   : Byte
  tag    : Byte
  params : List Byte
  short  : Bool
  deriving DecidableEq, Repr

/-- A command in progress and the place of the response FIFO it holds (R175, R176). -/
structure Progress where
  place : Nat
  code  : Byte
  tag   : Byte
  deriving DecidableEq, Repr

/-- The cause of a close (R159). -/
inductive Cause where
  | auto | command
  deriving DecidableEq, Repr

/-- The notice kinds with their parameters (R180). -/
inductive NoticeKind where
  | recordFreed (index number : Nat)
  | storeLow (count : Nat)
  | storeRecovered (count : Nat)
  | lineDown (line : Fin 4)
  | lineUp (line : Fin 4)
  | zoneOutage
  | zoneRestored (zones : ZoneSet)
  | reportDropped (l : Link)
  | closeStarted (period : Nat) (cause : Cause)
  | closeMissed (minute period : Nat)
  | periodClosed (period entries : Nat)
  deriving DecidableEq, Repr

/-- A notice with the tick count of the event that raised it (R180). -/
structure Notice where
  kind : NoticeKind
  tick : Tick
  deriving DecidableEq, Repr

/-- An exchange in progress (R171): the snapshot of the status byte, the response frame being shifted, and whether the
status byte has been read out (R172). -/
structure Exchange where
  statusByte : Byte
  response   : Option Response
  readOut    : Bool
  deriving DecidableEq, Repr

/-- The Command Link Unit (R170). `exchange` is none while QUIET. -/
structure Clu where
  exchange   : Option Exchange
  queue      : List CommandFrame
  inProgress : List Progress
  responses  : List Response
  notices    : List Notice
  overflow   : Bool
  dropped    : Bool
  resetSeen  : Bool
  /-- The ATTN output (R179). -/
  attn       : Bool
  deriving DecidableEq, Repr

/-! ## The input pins -/

/-- The levels of the inputs that the part reads as levels: ZST0 to ZST15, READY, REJECT and EHOLD. -/
structure Pins where
  zst    : ZoneSet
  ready  : Bool
  reject : Bool
  ehold  : Bool
  deriving DecidableEq, Repr

/-! ## The machine -/

/-- The whole part, and the commands that wait to be taken, first in, first out. -/
structure State where
  pins    : Pins
  stu     : Stu
  msu     : Msu
  chu     : Chu
  lines   : Four Line
  dsu     : Dsu
  rla     : Receiver
  rlb     : Receiver
  aru     : Aru
  pdu     : Pdu
  clu     : Clu
  pending : List Instr
  deriving DecidableEq, Repr

/-- The reasons a step can stop with a fault. There is none: the manual gives no event after which the part stops. -/
inductive Fault where
  deriving DecidableEq, Repr

/-- The reasons a step can refuse. -/
inductive Refusal where
  /-- Raised only by an arm of `exec` whose row has no meaning yet; no arm raises it now. Safe: the step stops. -/
  | notModelled (mnemonic : String)
  deriving DecidableEq, Repr

/-! ## Reset -/

/-- A list of no numbers. -/
def FreeList.empty : FreeList := { pushed := [], fresh := 0, limit := 0 }

/-- A list built in number order, 0 at the head (R10, R33). -/
def FreeList.full (limit : Nat) : FreeList := { pushed := [], fresh := 0, limit := limit }

/-- R1, R3: UNFORMATTED, no capacity, a free-record count of 0. -/
def Stu.reset : Stu :=
  { state := .unformatted, capacity := 0, free := .empty, freeCount := 0, records := [], numberIndex := [],
    addressIndex := [], formatPlace := none }

/-- R33: no messages, a free count of 0, low water clear, no TRAFFIC RESET. -/
def Msu.reset : Msu := { slots := [], free := .empty, freeCount := 0, lowWater := false, flush := none }

/-- A row at its reset values (R53). -/
def TariffRow.reset : TariffRow := { base := 0, free := 0, rate := 0 }

/-- R53. -/
def Chu.reset : Chu := { tone := .reset, numeric := .reset, alpha := .reset, mu := 8, md := 8 }

/-- R76. -/
def Line.reset : Line :=
  { state := .disabled, mode := .direct, n := 0, e := 0, parity := .none, stop := 1, stations := [], wait := 5,
    current := 0, fifo := [], breakRun := 0, frame := none, request := none, interTimer := none,
    stationTimer := none, reply := [], polls := [], disablePending := false, rdy := false }

/-- R106. -/
def Dsu.reset : Dsu :=
  { queues := { urgent := [], normal := [], deferred := [], retry := [] }, mode := .fixed,
    rotation := [.retry, .normal, .deferred], staging := none, sending := none, refusal := false,
    overrides := List.replicate 16 .follow, service := 0, outage := false, hold := false, divider := 255 }

/-- R129. -/
def Receiver.reset : Receiver :=
  { state := .disabled, n := 0, e := 0, parity := .none, chars := [], spoiled := false, timer := none, fifo := [],
    episode := false, dropped := 0, rejected := 0 }

/-- R142, R149. -/
def Aru.reset : Aru := { timed := [], w0 := 150, aMax := 4, hold := 1440 }

/-- R153; the first tick period is 1,024 REFCLK periods (R154). -/
def Pdu.reset : Pdu :=
  { p := 1, e := 0, tickLength := 1024, tick := 0, tickMinute := 0, minute := 0, closeAt := 0, auto := false,
    period := 0, sweep := .idle, cursor := 0, entries := 0, extract := [], waiters := [] }

/-- R170. -/
def Clu.reset : Clu :=
  { exchange := none, queue := [], inProgress := [], responses := [], notices := [], overflow := false,
    dropped := false, resetSeen := true, attn := false }

/-- Input pins at rest: the manual gives no level (DESIGN CHOICE, notes/assumptions/1.md). -/
def Pins.rest : Pins := { zst := 0, ready := false, reject := false, ehold := false }

/-- Every block after a hardware reset, with the input pins and the waiting commands as given. -/
def State.afterReset (pins : Pins) (pending : List Instr) : State :=
  { pins, stu := .reset, msu := .reset, chu := .reset,
    lines := { l0 := .reset, l1 := .reset, l2 := .reset, l3 := .reset }, dsu := .reset, rla := .reset, rlb := .reset,
    aru := .reset, pdu := .reset, clu := .reset, pending }

/-- The machine right after reset: no command waits and the input pins rest low. -/
def State.reset : State := State.afterReset Pins.rest []

end Sys2Proof.Machine
end

