-- ==== Sys2Proof/Machine/Ops.lean ====
section
/-! DEFINITION. The named operations over the state that every block shares: sparse tables, last-in first-out lists,
records, slots and indexes, the dispatch queues, the lines and links by name, and the Command Link Unit's notices and
responses. -/

namespace Sys2Proof.Machine
open Sys2Proof

/-- What a meaning answers. -/
abbrev Answer := Host.Outcome State Fault Refusal

/-! ## Sparse tables -/

/-- The value at a key, if the key is listed. -/
def Sparse.look {α : Type} : Sparse α → Nat → Option α
  | [], _ => none
  | (k, v) :: m, i => if k = i then some v else Sparse.look m i

/-- Writes a value at a key, keeping the keys rising. -/
def Sparse.put {α : Type} : Sparse α → Nat → α → Sparse α
  | [], i, v => [(i, v)]
  | (k, w) :: m, i, v =>
    if i < k then (i, v) :: (k, w) :: m
    else if k = i then (i, v) :: m
    else (k, w) :: Sparse.put m i v

/-- Removes a key. -/
def Sparse.drop {α : Type} : Sparse α → Nat → Sparse α
  | [], _ => []
  | (k, w) :: m, i => if k = i then Sparse.drop m i else (k, w) :: Sparse.drop m i

/-- The canonical form: keys strictly rising. -/
def Sparse.rising {α : Type} : Sparse α → Bool
  | [] => true
  | (k, _) :: m => m.all (fun p => decide (k < p.1)) && Sparse.rising m

/-! ## Free lists (R10, R33) -/

/-- Takes the number at the head. -/
def FreeList.take (f : FreeList) : Option (Nat × FreeList) :=
  match f.pushed with
  | i :: rest => some (i, { f with pushed := rest })
  | [] => if f.fresh < f.limit then some (f.fresh, { f with fresh := f.fresh + 1 }) else none

/-- Pushes a number on the head. -/
def FreeList.push (f : FreeList) (i : Nat) : FreeList := { f with pushed := i :: f.pushed }

/-- The list from its head. -/
def FreeList.toList (f : FreeList) : List Nat := f.pushed ++ (List.range f.limit).drop f.fresh

/-- How many numbers the list holds. -/
def FreeList.size (f : FreeList) : Nat := f.pushed.length + (f.limit - f.fresh)

/-! ## Records (R4) -/

/-- The record at an index; none when it is FREE. -/
def State.record? (s : State) (i : Nat) : Option Record := s.stu.records.look i

/-- Writes a record that is not FREE. -/
def State.putRecord (s : State) (i : Nat) (r : Record) : State :=
  { s with stu := { s.stu with records := s.stu.records.put i r } }

/-- Gives a record its FREE values. -/
def State.dropRecord (s : State) (i : Nat) : State :=
  { s with stu := { s.stu with records := s.stu.records.drop i } }

/-- Changes a record that is not FREE. -/
def State.updateRecord (s : State) (i : Nat) (f : Record → Record) : State :=
  match s.record? i with
  | some r => s.putRecord i (f r)
  | none => s

/-! ## Slots (R29, R30) -/

/-- The slot of a number; one not listed is FREE with reuse count 0. -/
def State.slot (s : State) (n : Nat) : Slot := (s.msu.slots.look n).getD { reuse := 0, message := none }

/-- The message of a slot; none when it is FREE. -/
def State.message? (s : State) (n : Nat) : Option Message := (s.slot n).message

/-- Writes a slot; a slot that is FREE with reuse count 0 is not listed. -/
def State.putSlot (s : State) (n : Nat) (v : Slot) : State :=
  { s with msu := { s.msu with
      slots := if v = { reuse := 0, message := none } then s.msu.slots.drop n else s.msu.slots.put n v } }

/-- Changes the message of a slot that is not FREE. -/
def State.updateMessage (s : State) (n : Nat) (f : Message → Message) : State :=
  match s.message? n with
  | some m => s.putSlot n { s.slot n with message := some (f m) }
  | none => s

/-- The reference of a slot: its reuse count times 2,048, plus its number (R30). -/
def State.reference (s : State) (n : Nat) : Nat := (s.slot n).reuse * Config.slotCount + n

/-- The slot a reference names when it is current: the slot is not FREE and carries the reference's reuse count
(R30). -/
def State.currentSlot (s : State) (ref : Nat) : Option Nat :=
  let n := ref % Config.slotCount
  if (s.message? n).isSome ∧ (s.slot n).reuse = ref / Config.slotCount then some n else none

/-! ## The two indexes (R7 to R9) -/

/-- The buckets of each index (R7). -/
def Stu.buckets (t : Stu) : Nat := t.capacity / 2

/-- The number bucket (R7). -/
def Stu.numberBucket (t : Stu) (n : Nat) : Nat := n % t.buckets

/-- The address bucket: (a mod B) XOR ((a div B) mod B) (R8). -/
def Stu.addressBucket (t : Stu) (a : Nat) : Nat := (a % t.buckets) ^^^ (a / t.buckets % t.buckets)

/-- A chain, head first; a bucket not listed holds end of chain. -/
def chainAt (ix : Sparse (List Nat)) (b : Nat) : List Nat := (ix.look b).getD []

/-- Writes a chain; an empty chain is not listed. -/
def putChain (ix : Sparse (List Nat)) (b : Nat) (chain : List Nat) : Sparse (List Nat) :=
  if chain = [] then ix.drop b else ix.put b chain

/-- Walks the chain of a number's bucket for the record that holds it (R9). -/
def State.findNumber (s : State) (n : Nat) : Option Nat :=
  (chainAt s.stu.numberIndex (s.stu.numberBucket n)).find? fun i => (s.record? i).any fun r => r.number == n

/-- Walks the chain of an address's bucket for the record that holds it (R9). -/
def State.findAddress (s : State) (a : Nat) : Option Nat :=
  (chainAt s.stu.addressIndex (s.stu.addressBucket a)).find? fun i => (s.record? i).any fun r => r.address == a

/-- Inserts a record at the head of a number's chain (R9). -/
def State.linkNumber (s : State) (n i : Nat) : State :=
  let b := s.stu.numberBucket n
  { s with stu := { s.stu with numberIndex := putChain s.stu.numberIndex b (i :: chainAt s.stu.numberIndex b) } }

/-- Unlinks a record from a number's chain (R9). -/
def State.unlinkNumber (s : State) (n i : Nat) : State :=
  let b := s.stu.numberBucket n
  { s with stu := { s.stu with
      numberIndex := putChain s.stu.numberIndex b ((chainAt s.stu.numberIndex b).erase i) } }

/-- Inserts a record at the head of an address's chain (R9). -/
def State.linkAddress (s : State) (a i : Nat) : State :=
  let b := s.stu.addressBucket a
  { s with stu := { s.stu with addressIndex := putChain s.stu.addressIndex b (i :: chainAt s.stu.addressIndex b) } }

/-- Unlinks a record from an address's chain (R9). -/
def State.unlinkAddress (s : State) (a i : Nat) : State :=
  let b := s.stu.addressBucket a
  { s with stu := { s.stu with
      addressIndex := putChain s.stu.addressIndex b ((chainAt s.stu.addressIndex b).erase i) } }

/-- The element after one in a list: a link of a chain or of a free list, none at its end. -/
def linkAfter (i : Nat) : List Nat → Option Nat
  | x :: y :: rest => if x = i then some y else linkAfter i (y :: rest)
  | _ => none

/-- The number-chain link of a record (R4). -/
def State.numberLink (s : State) (i : Nat) : Option Nat :=
  (s.record? i).bind fun r => linkAfter i (chainAt s.stu.numberIndex (s.stu.numberBucket r.number))

/-- The address-chain link of a record (R4). -/
def State.addressLink (s : State) (i : Nat) : Option Nat :=
  (s.record? i).bind fun r => linkAfter i (chainAt s.stu.addressIndex (s.stu.addressBucket r.address))

/-- The free-list link of a record (R4). -/
def State.freeLink (s : State) (i : Nat) : Option Nat := linkAfter i s.stu.free.toList

/-! ## The dispatch queues (R107) -/

/-- One queue. -/
def Queues.get (q : Queues) : QueueName → List Nat
  | .urgent => q.urgent
  | .normal => q.normal
  | .deferred => q.deferred
  | .retry => q.retry

/-- Replaces one queue. -/
def Queues.set (q : Queues) (n : QueueName) (l : List Nat) : Queues :=
  match n with
  | .urgent => { q with urgent := l }
  | .normal => { q with normal := l }
  | .deferred => { q with deferred := l }
  | .retry => { q with retry := l }

/-- Takes a slot out of whichever queue holds it; the others keep their order. -/
def Queues.erase (q : Queues) (n : Nat) : Queues :=
  { urgent := q.urgent.erase n, normal := q.normal.erase n, deferred := q.deferred.erase n, retry := q.retry.erase n }

/-- Slots on all four queues. -/
def Queues.total (q : Queues) : Nat := q.urgent.length + q.normal.length + q.deferred.length + q.retry.length

/-- A slot joins the tail of a queue. -/
def State.enqueue (s : State) (q : QueueName) (n : Nat) : State :=
  { s with dsu := { s.dsu with queues := s.dsu.queues.set q (s.dsu.queues.get q ++ [n]) } }

/-- A slot joins the head of a queue. -/
def State.requeue (s : State) (q : QueueName) (n : Nat) : State :=
  { s with dsu := { s.dsu with queues := s.dsu.queues.set q (n :: s.dsu.queues.get q) } }

/-- The queue of a priority (R29). -/
def Priority.queue : Priority → QueueName
  | .urgent => .urgent
  | .normal => .normal
  | .deferred => .deferred

/-! ## Lines and links by name -/

/-- The value of one line. -/
def Four.get {α : Type} (f : Four α) (n : Fin 4) : α :=
  if n = 0 then f.l0 else if n = 1 then f.l1 else if n = 2 then f.l2 else f.l3

/-- Replaces the value of one line. -/
def Four.set {α : Type} (f : Four α) (n : Fin 4) (v : α) : Four α :=
  if n = 0 then { f with l0 := v } else if n = 1 then { f with l1 := v } else if n = 2 then { f with l2 := v }
  else { f with l3 := v }

/-- Changes the value of every line. -/
def Four.map {α : Type} (f : α → α) (v : Four α) : Four α :=
  { l0 := f v.l0, l1 := f v.l1, l2 := f v.l2, l3 := f v.l3 }

/-- The RDY output as R80 drives it: low while the line is DISABLED or its FIFO holds 12 characters or more. -/
def Line.drive (l : Line) : Line :=
  { l with rdy := decide (l.state ≠ .disabled) && decide (l.fifo.length < Config.rdyLimit) }

/-- One line unit. -/
def State.line (s : State) (n : Fin 4) : Line := s.lines.get n

/-- Writes one line unit and drives its RDY output. -/
def State.putLine (s : State) (n : Fin 4) (l : Line) : State := { s with lines := s.lines.set n l.drive }

/-- One return link receiver. -/
def State.receiver (s : State) : Link → Receiver
  | .a => s.rla
  | .b => s.rlb

/-- Writes one return link receiver. -/
def State.putReceiver (s : State) (l : Link) (r : Receiver) : State :=
  match l with
  | .a => { s with rla := r }
  | .b => { s with rlb := r }

/-! ## The Command Link Unit (R175 to R180) -/

/-- Raises a notice: stored while the queue holds fewer than 32, else the overflow mark is set (R180). -/
def State.raise (s : State) (k : NoticeKind) : State :=
  if s.clu.notices.length < Config.noticeQueue then
    { s with clu := { s.clu with notices := s.clu.notices ++ [{ kind := k, tick := s.pdu.tick }], attn := true } }
  else { s with clu := { s.clu with overflow := true } }

/-- The response FIFO is full when its responses and the places held come to 8 (R175). -/
def State.responseFull (s : State) : Bool :=
  decide (Config.responseFifo ≤ s.clu.responses.length + s.clu.inProgress.length)

/-- A response enters the tail of the FIFO (R176), and ATTN is asserted (R179). -/
def State.respond (s : State) (r : Response) : State :=
  { s with clu := { s.clu with responses := s.clu.responses ++ [r], attn := true } }

/-- The least place of the response FIFO that no command in progress holds. -/
def State.freshPlace (s : State) : Nat :=
  ((List.range Config.responseFifo).find? fun p => s.clu.inProgress.all fun g => g.place != p).getD
    Config.responseFifo

/-- A command in progress completes: its response takes the place it held (R176). -/
def State.complete (s : State) (place : Nat) (result : Result) (params : List Byte) : State :=
  match s.clu.inProgress.find? fun g => g.place == place with
  | some g =>
    State.respond { s with clu := { s.clu with inProgress := s.clu.inProgress.erase g } }
      { code := g.code, tag := g.tag, result, params }
  | none => s

/-- What a block answers for a command it takes (R176): a response in the event, or none yet. -/
inductive Reply where
  | now (result : Result) (params : List Byte)
  | later
  deriving DecidableEq, Repr

/-- Starts a command that has passed the checks of R175, while the response FIFO is not full: the owning block takes
it with the place it holds, and it is answered or stays in progress. -/
def State.start (s : State) (code tag : Byte) (take : Nat → State → State × Reply) : State :=
  if s.responseFull then s
  else
    match take s.freshPlace s with
    | (s', .now result params) => s'.respond { code, tag, result, params }
    | (s', .later) =>
      { s' with clu := { s'.clu with
          inProgress := s'.clu.inProgress ++ [{ place := s.freshPlace, code, tag }] } }

end Sys2Proof.Machine
end

