-- ==== Sys2Proof/Machine/Operands.lean ====
section
/-! DEFINITION. The operand forms of the command link: the codes of enumerated fields in both directions (9.5, 9.6),
the ranges that make a field BAD FIELD, and the layouts of snapshots, entries and notices (R189, R191, R192). -/

namespace Sys2Proof.Machine
open Sys2Proof

/-! ## Codes read from a command (9.6); a code that names no value is out of range -/

/-- Capacity codes (R11). -/
def capacityOf (code : Byte) : Option Nat :=
  if code = 0 then some 8192 else if code = 1 then some 16384 else if code = 2 then some 32768
  else if code = 3 then some 65536 else none

/-- Class codes. -/
def classOf (code : Byte) : Option ServiceClass :=
  if code = 0 then some .tone else if code = 1 then some .numeric else if code = 2 then some .alpha else none

/-- Pager kind codes. -/
def kindOf (code : Byte) : Option PagerKind :=
  if code = 0 then some .oneWay else if code = 1 then some .twoWay else none

/-- A plan code with its amount. -/
def planOf (code : Byte) (amount : Nat) : Option Plan :=
  if code = 0 then some (.prepaid amount) else if code = 1 then some (.account amount) else none

/-- Priority codes. -/
def priorityOf (code : Byte) : Option Priority :=
  if code = 0 then some .urgent else if code = 1 then some .normal else if code = 2 then some .deferred else none

/-- Retire modes; `true` is PURGE. -/
def purgeOf (code : Byte) : Option Bool :=
  if code = 0 then some false else if code = 1 then some true else none

/-- Codes that are OFF 0 or ON 1. -/
def switchOf (code : Byte) : Option Bool :=
  if code = 0 then some false else if code = 1 then some true else none

/-- Line modes. -/
def lineModeOf (code : Byte) : Option LineMode :=
  if code = 0 then some .direct else if code = 1 then some .polled else none

/-- Parity codes. -/
def parityOf (code : Byte) : Option Parity :=
  if code = 0 then some .none else if code = 1 then some .even else if code = 2 then some .odd else none

/-- Override codes. -/
def overrideOf (code : Byte) : Option Override :=
  if code = 0 then some .follow else if code = 1 then some .forceIn else if code = 2 then some .forceOut else none

/-- Arbiter modes. -/
def arbiterOf (code : Byte) : Option ArbiterMode :=
  if code = 0 then some .fixed else if code = 1 then some .rotating else none

/-- Link names. -/
def linkOf (code : Byte) : Option Link :=
  if code = 0 then some .a else if code = 1 then some .b else none

/-- Line numbers, 0 to 3. -/
def lineOf (code : Byte) : Option (Fin 4) :=
  if h : code.toNat < 4 then some ⟨code.toNat, h⟩ else none

/-! ## Ranges -/

/-- A subscriber number, 1 to 9,999,999 (R4). -/
def numberInRange (n : BitVec 24) : Bool := decide (1 ≤ n.toNat) && decide (n.toNat ≤ Config.numberMax)

/-- A pager address, 1 to 1,048,575 (R4). -/
def addressInRange (a : BitVec 24) : Bool := decide (1 ≤ a.toNat) && decide (a.toNat ≤ Config.addressMax)

/-! ## Codes written in a response (9.5, 9.6) -/

/-- Result codes (9.5). -/
def Result.code : Result → Byte
  | .ok => 0x00 | .notFound => 0x01 | .unknownCommand => 0x02 | .lengthError => 0x03 | .badField => 0x04
  | .tableNotReady => 0x05 | .trafficPresent => 0x06 | .unknownSubscriber => 0x07 | .numberInUse => 0x08
  | .addressInUse => 0x09 | .chainFull => 0x0A | .tableFull => 0x0B | .addressBusy => 0x0C | .classBusy => 0x0D
  | .planBusy => 0x0E | .wrongPlan => 0x0F | .staleReference => 0x10 | .resetBusy => 0x11 | .serviceClosed => 0x12
  | .notInService => 0x13 | .bodyInvalid => 0x14 | .subscriberFull => 0x15 | .storeFull => 0x16 | .noCredit => 0x17
  | .overCeiling => 0x18 | .lineActive => 0x19 | .pinsInUse => 0x1A | .linkActive => 0x1B | .sweepBusy => 0x1C

def TableState.code : TableState → Nat
  | .unformatted => 0 | .formatting => 1 | .ready => 2

/-- Record states; FREE is 0. -/
def RecordState.code : RecordState → Nat
  | .active => 1 | .suspended => 2 | .retiring => 3

def ServiceClass.code : ServiceClass → Nat
  | .tone => 0 | .numeric => 1 | .alpha => 2

def PagerKind.code : PagerKind → Nat
  | .oneWay => 0 | .twoWay => 1

def Plan.code : Plan → Nat
  | .prepaid _ => 0 | .account _ => 1

/-- The balance of PREPAID or the ceiling of ACCOUNT. -/
def Plan.amount : Plan → Nat
  | .prepaid balance => balance | .account ceiling => ceiling

/-- UNKNOWN 0x00, HERE in zone z 0x10 + z, AWAY 0x20. -/
def Presence.code : Presence → Nat
  | .unknown => 0x00 | .here z => 0x10 + z | .away => 0x20

def Priority.code : Priority → Nat
  | .urgent => 0 | .normal => 1 | .deferred => 2

/-- Slot states; FREE is 0. -/
def Place.code : Place → Nat
  | .queued => 1 | .staged => 2 | .sending => 3 | .awaiting _ => 4 | .held _ => 5

def QueueName.code : QueueName → Nat
  | .urgent => 0 | .normal => 1 | .deferred => 2 | .retry => 3

def Source.code : Source → Nat
  | .line n => n.val | .commandLink => 4

def LineMode.code : LineMode → Nat
  | .direct => 0 | .polled => 1

def Parity.code : Parity → Nat
  | .none => 0 | .even => 1 | .odd => 2

def LineState.code : LineState → Nat
  | .disabled => 0 | .idle => 1 | .assembling => 2 | .awaitingAcceptance => 3 | .replying => 4 | .down => 5

def Override.code : Override → Nat
  | .follow => 0 | .forceIn => 1 | .forceOut => 2

def ArbiterMode.code : ArbiterMode → Nat
  | .fixed => 0 | .rotating => 1

def linkCode : Link → Nat
  | .a => 0 | .b => 1

def LinkState.code : LinkState → Nat
  | .disabled => 0 | .hunting => 1 | .assembling => 2

def SweepState.code : SweepState → Nat
  | .idle => 0 | .sweeping => 1 | .stalled => 2

def Cause.code : Cause → Nat
  | .auto => 0 | .command => 1

/-- Waiter kinds (9.6). -/
def Waiter.code : Waiter → Nat
  | .line n => 1 + n.val
  | .command .. => 5
  | .arbiter => 6
  | .completion => 7
  | .report .a => 8
  | .report .b => 9
  | .expiry => 10
  | .walk => 11
  | .closing .. => 12

/-! ## Layouts -/

/-- A field that may be absent: a presence byte, then the field, as zero bytes when absent (R189). -/
def optionalBytes {α : Type} (width : Nat) (bytes : α → List Byte) : Option α → List Byte
  | none => 0 :: List.replicate width 0
  | some v => 1 :: bytes v

/-- The whole response frame as shifted on MISO (R189). -/
def Response.bytes (r : Response) : List Byte :=
  nat2 (3 + r.params.length) ++ r.code :: r.tag :: r.result.code :: r.params

/-- An extract entry, 28 bytes (R192). -/
def Entry.bytes (e : Entry) : List Byte :=
  nat3 e.number ++ nat2 e.index ++ nat3 e.address ++ nat1 e.plan.code ++ nat2 e.period ++ nat2 e.delivered ++
  nat2 e.within ++ nat3 e.chars ++ nat3 e.charge ++ nat3 e.pending ++ nat3 e.plan.amount ++
  nat1 ((if e.saturated then 1 else 0) + (if e.closing then 2 else 0))

/-- The kind byte of a notice and its five parameter bytes, unused ones 0 (R192). -/
def NoticeKind.bytes : NoticeKind → Byte × List Byte
  | .recordFreed index number => (0x01, nat2 index ++ nat3 number)
  | .storeLow count => (0x02, nat2 count ++ [0, 0, 0])
  | .storeRecovered count => (0x03, nat2 count ++ [0, 0, 0])
  | .lineDown line => (0x04, nat1 line.val ++ [0, 0, 0, 0])
  | .lineUp line => (0x05, nat1 line.val ++ [0, 0, 0, 0])
  | .zoneOutage => (0x06, [0, 0, 0, 0, 0])
  | .zoneRestored zones => (0x07, bytes2 zones ++ [0, 0, 0])
  | .reportDropped l => (0x08, nat1 (linkCode l) ++ [0, 0, 0, 0])
  | .closeStarted period cause => (0x09, nat2 period ++ nat1 cause.code ++ [0, 0])
  | .closeMissed minute period => (0x0A, nat3 minute ++ nat2 period)
  | .periodClosed period entries => (0x0B, nat2 period ++ nat3 entries)

/-- A notice, 10 bytes: kind, tick count, parameters (R192). -/
def Notice.bytes (n : Notice) : List Byte := n.kind.bytes.1 :: (bytes4 n.tick ++ n.kind.bytes.2)

/-- The snapshot of a record (R26, R191); of a FREE record only its index and the state FREE. -/
def State.snapshot (s : State) (i : Nat) : List Byte :=
  match s.record? i with
  | none => nat2 i ++ nat1 0
  | some r =>
    nat2 i ++ nat1 r.state.code ++ nat3 r.number ++ nat3 r.address ++ nat1 r.cls.code ++ nat1 r.kind.code ++
    bytes2 r.zones ++ nat1 r.presence.code ++ nat1 r.plan.code ++ nat3 r.plan.amount ++ nat3 r.pending ++
    nat3 r.charge ++ nat1 ((if r.saturated then 1 else 0) + (if r.closing then 2 else 0)) ++ nat2 r.allowance ++
    nat2 r.used ++ nat2 r.delivered ++ nat3 r.chars ++ nat2 r.periodTag ++ nat1 r.nextTag ++
    nat1 r.live.length ++ r.live.flatMap (fun n => nat2 n ++ nat1 ((s.message? n).elim 0 (·.tag))) ++
    nat1 r.held.length ++ r.held.flatMap nat2

end Sys2Proof.Machine
end

