-- ==== Sys2Proof/Machine/Flags.lean ====
section
/-! DEFINITION. Every flag, mark and derived condition that the rules read: sweep in progress, room for an entry, the
live zone set, the hold, who waits, due deadlines, the sampling of a character, the status byte and the ATTN output. -/

namespace Sys2Proof.Machine
open Sys2Proof

/-! ## Table, sweep and waiters -/

/-- The table is READY (R1). -/
def State.ready (s : State) : Bool := s.stu.state == .ready

/-- A sweep is in progress while the sweep state is SWEEPING or STALLED (R153). -/
def State.sweepInProgress (s : State) : Bool := s.pdu.sweep != .idle

/-- The record carries a period tag other than the current period number while a sweep is in progress (R162). -/
def State.needsTouch (s : State) (r : Record) : Bool := s.sweepInProgress && r.periodTag != s.pdu.period

/-- Room for `n` entries: the list of waiters is empty, or the operation is at its head being taken anew, and the FIFO
has a free place for each (R164). -/
def State.hasRoom (s : State) (anew : Bool) (n : Nat) : Bool :=
  (anew || s.pdu.waiters.isEmpty) && decide (s.pdu.extract.length + n ≤ Config.extractFifo)

/-- The sweep may not visit: the FIFO holds 56 entries or more, or an operation waits (R161). -/
def State.sweepBlocked (s : State) : Bool :=
  decide (Config.sweepStall ≤ s.pdu.extract.length) || !s.pdu.waiters.isEmpty

/-- The acceptance of a line waits for extract space (R165). -/
def State.lineWaits (s : State) (n : Fin 4) : Bool := s.pdu.waiters.any (· == .line n)

/-- The arbiter waits for extract space (R112). -/
def State.arbiterWaits (s : State) : Bool := s.pdu.waiters.any (· == .arbiter)

/-- A frame completion waits for extract space (R125). -/
def State.completionWaits (s : State) : Bool := s.pdu.waiters.any (· == .completion)

/-- The head report of a link waits: for a touch-sweep, or for the closing entry its settlement began (R136, R166). The
flag of RETURN STATUS is set in both cases (DESIGN CHOICE, notes/assumptions/42.md). -/
def State.reportWaits (s : State) (l : Link) : Bool :=
  s.pdu.waiters.any fun
    | .report l' => l' == l
    | .closing _ (.report l') => l' == l
    | _ => false

/-- An expiry waits: for a touch-sweep, or for the closing entry its settlement began (R148, R166). The flag of RETURN
STATUS is set in both cases (DESIGN CHOICE, notes/assumptions/42.md). -/
def State.expiryWaits (s : State) : Bool :=
  s.pdu.waiters.any fun
    | .expiry => true
    | .closing _ .expiry => true
    | _ => false

/-- The flush walk waits: for a touch-sweep, or for the closing entry a flush began (R49, R166). -/
def State.walkWaits (s : State) : Bool :=
  s.pdu.waiters.any fun
    | .walk => true
    | .closing _ .walk => true
    | _ => false

/-- A closing entry begun by the reset waits (R51). -/
def State.resetClosingWaits (s : State) : Bool :=
  s.pdu.waiters.any fun
    | .closing _ .walk => true
    | .closing _ (.alone true) => true
    | _ => false

/-- A TRAFFIC RESET is in progress (R48). -/
def State.resetting (s : State) : Bool := s.msu.flush.isSome

/-! ## Zones and the transmitter link -/

/-- The set of the zones of which `p` holds. -/
def zonesWhere (p : Nat → Bool) : ZoneSet :=
  (List.range 16).foldl (fun acc z => if p z then acc ||| (1#16 <<< z) else acc) 0

/-- A zone is live when it is in the service mask and its override is FORCE IN, or FOLLOW with its ZST input high
(R113). -/
def State.zoneLive (s : State) (z : Nat) : Bool :=
  s.dsu.service.getLsbD z &&
    match s.dsu.overrides.getD z .follow with
    | .follow => s.pins.zst.getLsbD z
    | .forceIn => true
    | .forceOut => false

/-- The live zone set, formed at each moment (R106, R113). -/
def State.liveZones (s : State) : ZoneSet := zonesWhere s.zoneLive

/-- Dispatch is held while EHOLD is high or the dispatch hold flag is set (R120). -/
def State.held (s : State) : Bool := s.pins.ehold || s.dsu.hold

/-- R108: the arbiter makes a take when all of these hold together. While a frame completion waits for extract space it
takes nothing more (R125; DEDUCED, notes/assumptions/13.md). -/
def State.takeAllowed (s : State) : Bool :=
  s.dsu.staging.isNone && decide (0 < s.dsu.queues.total) && decide (s.liveZones ≠ 0) && !s.resetting &&
    !s.arbiterWaits && !s.completionWaits

/-- R120: the staged slot moves to sending when all of these hold together. -/
def State.moveAllowed (s : State) : Bool :=
  s.dsu.staging.isSome && s.dsu.sending.isNone && s.pins.ready && !s.held && !s.resetting

/-- R118: the outage mark is to be set. -/
def State.outageDue (s : State) : Bool :=
  !s.dsu.outage && decide (s.liveZones = 0) && s.dsu.staging.isNone && decide (0 < s.dsu.queues.total) &&
    !s.resetting

/-! ## Deadlines (R141) -/

/-- The first tick value is at or before the second: their difference, read as a signed number, is 0 or below. -/
def notAfter (a b : Tick) : Bool := decide ((a - b).toInt ≤ 0)

/-- The deadline of a slot; present exactly while it is AWAITING or HELD (R31). -/
def Message.deadline (m : Message) : Option Tick :=
  match m.place with
  | .awaiting d => some d
  | .held d => some d
  | _ => none

/-- The slot at the head of the timed list, when it is due (R143). -/
def State.dueHead (s : State) : Option Nat :=
  match s.aru.timed with
  | n :: _ =>
    match (s.message? n).bind (·.deadline) with
    | some d => if notAfter d s.pdu.tick then some n else none
    | none => none
  | [] => none

/-! ## Lines and links -/

/-- Return link B is enabled, and so holds line 3's pins (R102). -/
def State.linkBEnabled (s : State) : Bool := s.rlb.state != .disabled

/-- The line is not DISABLED (a line with the disable-pending mark is not, R98). -/
def Line.active (l : Line) : Bool := l.state != .disabled

/-- The number of ones of a byte. -/
def onesOf (b : Byte) : Nat := (List.range 8).countP fun i => b.getLsbD i

/-- The parity bit of a character: over the eight data bits and, where there is one, the mark bit (R79, R130). -/
def parityBit (p : Parity) (data : Byte) (mark : Option Bool) : Option Bool :=
  let ones := onesOf data + (if mark = some true then 1 else 0)
  match p with
  | .none => none
  | .even => some (decide (ones % 2 = 1))
  | .odd => some (decide (ones % 2 = 0))

/-- The received parity bit is wrong; never with parity NONE. -/
def parityError (p : Parity) (data : Byte) (mark : Option Bool) (received : Bool) : Bool :=
  match parityBit p data mark with
  | none => false
  | some right => received != right

/-! ## The bits of a character (R79, R130, R187) -/

/-- The eight data bits of a character in the order sent, least significant first (R79, R130). -/
def lsbFirst (data : Byte) : List Bool := (List.range 8).map fun i => data.getLsbD i

/-- The byte of the data bits in the order received, the first the least significant (R79, R130). -/
def byteOfLsbFirst (bits : List Bool) : Byte := BitVec.ofNat 8 (bits.foldr (fun b acc => 2 * acc + b.toNat) 0)

/-- What a receiver samples of one character on its RXD pin: the operands of the row of the character's completion. -/
structure Sampled where
  data : Byte
  mark : Bool
  parity : Bool
  stop : Bool
  deriving DecidableEq, Repr

/-- The sampling of one character: a start bit, eight data bits, the mark bit where the format has one, the parity bit
unless NONE, and the level at the first stop position; what follows is not looked at (R79, R130). A mark or a parity bit
that the format does not have is given as clear, and its row does not read it (notes/assumptions/37.md). None where the
levels are not those of a whole character. -/
def sampleCharacter (marked : Bool) (p : Parity) : List Bool → Option Sampled
  | false :: b0 :: b1 :: b2 :: b3 :: b4 :: b5 :: b6 :: b7 :: rest =>
    match if marked then rest else false :: rest with
    | [] => none
    | mark :: rest =>
      match if p = .none then false :: rest else rest with
      | parity :: stop :: _ => some ⟨byteOfLsbFirst [b0, b1, b2, b3, b4, b5, b6, b7], mark, parity, stop⟩
      | _ => none
  | _ => none

/-! ## The status byte and ATTN -/

/-- The status byte (R172, R190). -/
def State.statusByte (s : State) : Byte :=
  (if s.clu.responses.isEmpty then 0x00 else 0x80) ||| (if s.clu.notices.isEmpty then 0x00 else 0x40) |||
  (if s.clu.dropped then 0x20 else 0x00) ||| (if s.clu.resetSeen then 0x10 else 0x00) |||
  BitVec.ofNat 8 (2 * s.clu.queue.length) ||| (if s.clu.inProgress.isEmpty then 0x00 else 0x01)

/-- ATTN is asserted while the response FIFO or the notice queue is non-empty (R179). -/
def Clu.driveAttn (c : Clu) : Clu := { c with attn := !c.responses.isEmpty || !c.notices.isEmpty }

end Sys2Proof.Machine
end

