-- ==== Sys2Proof/Machine/Charge.lean ====
section
/-! DEFINITION. The Charge Unit's arithmetic on one record (chapter 3): pricing, the credit check, reservation and
settlement, and the commands SET TARIFF and READ TARIFF. ADJUST BALANCE stands in Machine/Table.lean, beside the other
commands that name a record. -/

namespace Sys2Proof.Machine
open Sys2Proof

/-! ## Pricing (R56 to R59) -/

/-- The tariff row of a class. -/
def Chu.row (c : Chu) : ServiceClass → TariffRow
  | .tone => c.tone
  | .numeric => c.numeric
  | .alpha => c.alpha

/-- The character part of a body of `n` characters (R57). -/
def TariffRow.characterPart (t : TariffRow) (n : Nat) : Nat := ((n - t.free) * t.rate + 15) / 16

/-- The subtotal: the base charge unless the page is within allowance, and the character part (R58). -/
def TariffRow.subtotal (t : TariffRow) (n : Nat) (within : Bool) : Nat :=
  (if within then 0 else t.base) + t.characterPart n

/-- The priority applied to the subtotal, rounding half up (R59). -/
def Chu.prioritise (c : Chu) (p : Priority) (subtotal : Nat) : Nat :=
  match p with
  | .normal => subtotal
  | .urgent => (subtotal * c.mu + 4) / 8
  | .deferred => (subtotal * c.md + 4) / 8

/-- The charge C: the priced charge, capped at 65,535 (R59). -/
def Chu.price (c : Chu) (cls : ServiceClass) (n : Nat) (p : Priority) (within : Bool) : Nat :=
  min (c.prioritise p ((c.row cls).subtotal n within)) Config.chargeMax

/-- A page is within allowance when pages used is below the allowance (R56). -/
def Record.withinAllowance (r : Record) : Bool := decide (r.used < r.allowance)

/-- The charge of a page for a record as it stands. -/
def Chu.priceFor (c : Chu) (r : Record) (n : Nat) (p : Priority) : Nat := c.price r.cls n p r.withinAllowance

/-! ## The credit check (R60, R61) -/

/-- The page passes: for PREPAID the balance less pending is at least C; for ACCOUNT the ceiling is 0, or the period
charge plus pending plus C is at most the ceiling. -/
def Record.creditPasses (r : Record) (c : Nat) : Bool :=
  match r.plan with
  | .prepaid balance => decide (r.pending + c ≤ balance)
  | .account ceiling => decide (ceiling = 0) || decide (r.charge + r.pending + c ≤ ceiling)

/-- The refusal of a failed credit check. -/
def Record.creditRefusal (r : Record) : Result :=
  match r.plan with
  | .prepaid _ => .noCredit
  | .account _ => .overCeiling

/-- The available figure the test used, 0 where it would be negative (R61). -/
def Record.available (r : Record) : Nat :=
  match r.plan with
  | .prepaid balance => balance - r.pending
  | .account ceiling => ceiling - (r.charge + r.pending)

/-! ## Reservation (R62) -/

/-- Pending rises by C, and pages used by one when the page was priced within allowance. -/
def Record.reserve (r : Record) (c : Nat) : Record :=
  { r with pending := r.pending + c, used := if r.withinAllowance then r.used + 1 else r.used }

/-! ## Settlement (R64 to R68) -/

/-- The outcomes of a settlement. -/
inductive Ending where
  | delivered | cancelled | abandoned | flushed
  deriving DecidableEq, Repr

/-- C moves out of the balance of a PREPAID owner and into the period charge, which saturates and then sets the mark
(R65, R66, R68). -/
def Record.chargeFinal (r : Record) (c : Nat) : Record :=
  { r with
    plan := match r.plan with
      | .prepaid balance => .prepaid (balance - c)
      | .account ceiling => .account ceiling
    charge := min (r.charge + c) Config.unitMax
    saturated := r.saturated || decide (Config.unitMax < r.charge + c) }

/-- The allowance page of a released charge returns when it was reserved in the current period (R67). -/
def Record.returnPage (r : Record) (m : Message) (period : Nat) : Record :=
  if m.allowanceUsed = some period then { r with used := r.used - 1 } else r

/-- Pages and characters delivered, each saturating (R65, R68). -/
def Record.countDelivery (r : Record) (n : Nat) : Record :=
  { r with delivered := min (r.delivered + 1) Config.countMax, chars := min (r.chars + n) Config.unitMax }

/-- A settlement's effect on the owner's counters (R64 to R67). -/
def Record.settle (r : Record) (e : Ending) (m : Message) (period : Nat) : Record :=
  let r := { r with pending := r.pending - m.charge }
  match e with
  | .delivered => (r.chargeFinal m.charge).countDelivery m.body.length
  | .cancelled => if m.aired then r.chargeFinal m.charge else r.returnPage m period
  | .abandoned | .flushed => r.returnPage m period

/-! ## Balance, allowance and plan (R70, R72 to R74) -/

/-- The balance an adjustment gives: the sum brought within pending and 16,777,215 (R70). -/
def adjustedBalance (balance pending : Nat) (amount : Int) : Nat :=
  (max (pending : Int) (min ((balance : Int) + amount) (Config.unitMax : Int))).toNat

/-! ## SET TARIFF and READ TARIFF -/

/-- The clamped indications of a command: one bit per value in the order the values are carried (R189). -/
def clampBits (marks : List Bool) : Byte :=
  (marks.zipIdx).foldl (fun acc p => if p.1 then acc ||| (1#8 <<< p.2) else acc) 0

/-- A class row brought into range (R53, R54). -/
def clampRow (base : BitVec 16) (free : Byte) (rate : BitVec 16) : TariffRow :=
  { base := base.toNat, free := min free.toNat 80, rate := min rate.toNat 4095 }

/-- The response parameters of a class row (R54). -/
def rowReply (t : TariffRow) (free : Byte) (rate : BitVec 16) : List Byte :=
  nat2 t.base ++ nat1 t.free ++ nat2 t.rate ++
    [clampBits [false, decide (t.free ≠ free.toNat), decide (t.rate ≠ rate.toNat)]]

/-- SET TARIFF as the CHU takes it (R54). -/
def takeSetTariff (a : TariffArgs) (s : State) : State × Reply :=
  match a with
  | .tone base free rate =>
    let t := clampRow base free rate
    ({ s with chu := { s.chu with tone := t } }, .now .ok (rowReply t free rate))
  | .numeric base free rate =>
    let t := clampRow base free rate
    ({ s with chu := { s.chu with numeric := t } }, .now .ok (rowReply t free rate))
  | .alpha base free rate =>
    let t := clampRow base free rate
    ({ s with chu := { s.chu with alpha := t } }, .now .ok (rowReply t free rate))
  | .multipliers mu md =>
    let u := max 8 (min mu.toNat 32)
    let d := min md.toNat 8
    ({ s with chu := { s.chu with mu := u, md := d } },
      .now .ok (nat1 u ++ nat1 d ++ [clampBits [decide (u ≠ mu.toNat), decide (d ≠ md.toNat)]]))
  | .other _ _ => (s, .now .badField [])

/-- The bytes of a tariff row. -/
def TariffRow.bytes (t : TariffRow) : List Byte := nat2 t.base ++ nat1 t.free ++ nat2 t.rate

/-- READ TARIFF as the CHU takes it (R55). The three class rows are plain fields, without the count byte of a list
(DESIGN CHOICE, notes/assumptions/41.md). -/
def takeReadTariff (s : State) : State × Reply :=
  (s, .now .ok (s.chu.tone.bytes ++ s.chu.numeric.bytes ++ s.chu.alpha.bytes ++ nat1 s.chu.mu ++ nat1 s.chu.md))

/-- SET TARIFF started on the command link. -/
def startSetTariff (tag : Byte) (a : TariffArgs) (s : State) : State :=
  s.start 0x30 tag fun _ => takeSetTariff a

/-- READ TARIFF started on the command link. -/
def startReadTariff (tag : Byte) (s : State) : State := s.start 0x31 tag fun _ => takeReadTariff

/-- SET_TARIFF (R54). -/
def execSetTariff (tag : Byte) (a : TariffArgs) (s : State) : Answer := .next (startSetTariff tag a s)

/-- READ_TARIFF (R55). -/
def execReadTariff (tag : Byte) (s : State) : Answer := .next (startReadTariff tag s)

end Sys2Proof.Machine
end

