-- ==== Sys2Proof/Machine/Extract.lean ====
section
/-! DEFINITION. The work of closing a record's period and of freeing a record, shared by every operation that does it
(R24, R160, R162 to R166): the entry, the touch-sweep, the closing entry, the list of waiters. An operation is taken
with `anew = true` when it has its turn at the head of the list; its waiter is then off the list, and goes back to the
head if it must go on waiting. -/

namespace Sys2Proof.Machine
open Sys2Proof

/-- The extract entry of a record (R160); the closing entry has the closing flag set (R24). -/
def Record.entry (r : Record) (i : Nat) (closing : Bool) : Entry :=
  { number := r.number, index := i, address := r.address, plan := r.plan, period := r.periodTag,
    delivered := r.delivered, within := r.used, chars := r.chars, charge := r.charge, saturated := r.saturated,
    pending := r.pending, closing }

/-- The period counters reset, and the tag current (R160). -/
def Record.closePeriod (r : Record) (period : Nat) : Record :=
  { r with used := 0, delivered := 0, chars := 0, charge := 0, saturated := false, periodTag := period }

/-- An entry at the tail of the extract FIFO; none is written into a full FIFO (R163). -/
def State.writeEntry (s : State) (e : Entry) : State :=
  if s.pdu.extract.length < Config.extractFifo then
    { s with pdu := { s.pdu with extract := s.pdu.extract ++ [e] } }
  else s

/-- Closes a record's period: its entry, its counters, and the period entry count (R160). -/
def State.closeRecord (s : State) (i : Nat) (r : Record) : State :=
  let s := (s.writeEntry (r.entry i false)).putRecord i (r.closePeriod s.pdu.period)
  { s with pdu := { s.pdu with entries := s.pdu.entries + 1 } }

/-- The touch-sweep of a record (R162): made when the record carries the old tag during a sweep; none when the extract
FIFO has no room for its entry (R164). -/
def State.touch (s : State) (anew : Bool) (i : Nat) : Option State :=
  match s.record? i with
  | none => some s
  | some r =>
    if s.needsTouch r then
      if s.hasRoom anew 1 then some (s.closeRecord i r) else none
    else some s

/-- An operation begins to wait: at the tail of the list, or back at its head when it was taken anew (R164, R166). -/
def State.wait (s : State) (anew : Bool) (w : Waiter) : State :=
  { s with pdu := { s.pdu with waiters := if anew then w :: s.pdu.waiters else s.pdu.waiters ++ [w] } }

/-- A record whose closing entry is written becomes FREE: unlinked from its address chain, given its FREE values,
pushed on the free list, with the notice RECORD FREED (R24). -/
def State.releaseRecord (s : State) (i : Nat) (r : Record) : State :=
  let s := (s.unlinkAddress r.address i).dropRecord i
  let s := { s with stu := { s.stu with free := s.stu.free.push i, freeCount := s.stu.freeCount + 1 } }
  s.raise (.recordFreed i r.number)

/-- The freeing that a flush of the reset began counts in its response (R51). -/
def State.countFreed (s : State) (holder : Holder) : State :=
  match holder with
  | .walk | .alone true =>
    { s with msu := { s.msu with flush := s.msu.flush.map fun f => { f with freed := f.freed + 1 } } }
  | _ => s

/-- Writes the closing entry of a RETIRING record, after the touch-swept entry where the tag is old, and completes the
freeing; both entries or neither (R24, R166). -/
def State.writeClosing (s : State) (anew : Bool) (i : Nat) (holder : Holder) : Option State :=
  match s.record? i with
  | none => some s
  | some r =>
    if s.hasRoom anew (if s.needsTouch r then 2 else 1) then
      let s := if s.needsTouch r then s.closeRecord i r else s
      match s.record? i with
      | none => some s
      | some r => some (((s.writeEntry (r.entry i true)).releaseRecord i r).countFreed holder)
    else none

/-- Begins the freeing of a record that is RETIRING with an empty live list (R24): the closing-pending mark, then the
closing entry or a place in the list of waiters. The flag says that the closing entry waits. -/
def State.beginFreeing (s : State) (anew : Bool) (i : Nat) (holder : Holder) : State × Bool :=
  let s := s.updateRecord i fun r => { r with closing := true }
  match s.writeClosing anew i holder with
  | some s' => (s', false)
  | none => (s.wait anew (.closing i holder), true)

/-- The record is due to be freed: RETIRING with an empty live list (R24). -/
def State.freeingDue (s : State) (i : Nat) : Bool :=
  (s.record? i).any fun r => r.state == .retiring && r.live.isEmpty

/-- Step 5 of a settlement: the freeing of the owner, where it is due (R41). -/
def State.freeOwner (s : State) (anew : Bool) (i : Nat) (holder : Holder) : State × Bool :=
  if s.freeingDue i then s.beginFreeing anew i holder else (s, false)

/-- A STALLED sweep returns to SWEEPING in the event that leaves the FIFO below 56 with the list empty (R161, R167). -/
def State.resumeSweep (s : State) : State :=
  if s.pdu.sweep = .stalled ∧ s.sweepBlocked = false then
    { s with pdu := { s.pdu with sweep := .sweeping } }
  else s

end Sys2Proof.Machine
end

