-- ==== Sys2Proof/Machine/Store.lean ====
section
/-! DEFINITION. The Message Store Unit's shared operations (chapter 2): giving out a slot, taking a slot out of its
place, settlement and the freeing of a slot, and the timed list with parking (R141 to R146), which moves slots between
places on behalf of acceptances, takes and expiries. -/

namespace Sys2Proof.Machine
open Sys2Proof

/-! ## Tags and allocation (R34, R35) -/

/-- The first tag, counting upward from one and wrapping from 127 to 0, that is not in use; 17 tags suffice (R35). -/
def chooseTag (used : List Nat) : Nat → Nat → Nat
  | 0, t => t
  | k + 1, t => if t ∈ used then chooseTag used k ((t + 1) % 128) else t

/-- The tags that a record's live list carries. -/
def State.liveTags (s : State) (r : Record) : List Nat := r.live.filterMap fun n => (s.message? n).map (·.tag)

/-- An allocation lowers the free count by one, and from 65 to 64 it enters low water (R36). -/
def State.lowerFree (s : State) : State :=
  let count := s.msu.freeCount - 1
  if s.msu.freeCount = Config.lowWater + 1 then
    State.raise { s with msu := { s.msu with freeCount := count, lowWater := true } } (.storeLow count)
  else { s with msu := { s.msu with freeCount := count } }

/-- A freeing raises the free count by one, and from 64 to 65 it leaves low water (R36). -/
def State.raiseFree (s : State) : State :=
  let count := s.msu.freeCount + 1
  if s.msu.freeCount = Config.lowWater then
    State.raise { s with msu := { s.msu with freeCount := count, lowWater := false } } (.storeRecovered count)
  else { s with msu := { s.msu with freeCount := count } }

/-- What an acceptance writes into its slot (R29), beside the slot's own number and reuse count. -/
def newMessage (i : Nat) (r : Record) (tag : Nat) (src : Source) (p : Priority) (body : List Byte) (charge period : Nat) :
    Message :=
  { place := .queued, owner := i, tag, source := src, cls := r.cls, kind := r.kind, priority := p, body, charge,
    allowanceUsed := if r.withinAllowance then some period else none, attempts := 0, aired := false,
    released := false, origin := p.queue, ackPending := false, cancelPending := false }

/-- Allocates slot `n`, taken from the head of the free-slot list, to an accepted message of record `i`, and reserves
its charge (R34, R62). The slot is then in no place: the acceptance enqueues or parks it (R94). -/
def State.allocate (s : State) (n : Nat) (free : FreeList) (i : Nat) (r : Record) (src : Source) (p : Priority)
    (body : List Byte) (charge : Nat) : State :=
  let tag := chooseTag (s.liveTags r) 17 r.nextTag
  let message := newMessage i r tag src p body charge s.pdu.period
  let s := { s with msu := { s.msu with free := free } }
  let s := s.lowerFree
  let s := s.putSlot n { reuse := ((s.slot n).reuse + 1) % 32, message := some message }
  s.putRecord i { r.reserve charge with live := r.live ++ [n], nextTag := (tag + 1) % 128 }

/-! ## Places and the timed list (R31, R142) -/

/-- Takes a slot out of the place its state gives: its queue, the staging buffer, the sending buffer or the timed
list (R41, step 2). Its owner's held list is left for the freeing of the slot or for the event that releases it. -/
def State.takeOut (s : State) (n : Nat) (p : Place) : State :=
  match p with
  | .queued => { s with dsu := { s.dsu with queues := s.dsu.queues.erase n } }
  | .staged => { s with dsu := { s.dsu with staging := none } }
  | .sending => { s with dsu := { s.dsu with sending := none } }
  | .awaiting _ | .held _ => { s with aru := { s.aru with timed := s.aru.timed.erase n } }

/-- The deadline of a slot of the timed list. -/
def State.deadlineOf (s : State) (n : Nat) : Tick := ((s.message? n).bind (·.deadline)).getD 0

/-- Inserts a slot after every slot whose deadline is at or before its own and before the first later one (R142). -/
def insertByDeadline (deadlineOf : Nat → Tick) (n : Nat) (d : Tick) : List Nat → List Nat
  | [] => [n]
  | x :: rest => if notAfter (deadlineOf x) d then x :: insertByDeadline deadlineOf n d rest else n :: x :: rest

/-- A slot in no place joins the timed list in the state given, AWAITING or HELD, with its deadline. -/
def State.placeTimed (s : State) (n : Nat) (p : Place) (d : Tick) : State :=
  let timed := insertByDeadline s.deadlineOf n d s.aru.timed
  let s := s.updateMessage n fun m => { m with place := p }
  { s with aru := { s.aru with timed := timed } }

/-- The acknowledgement wait W_k: W0 doubled for each earlier attempt, or 600 where that exceeds 600 (R144). -/
def Aru.ackWait (a : Aru) (k : Nat) : Nat := min (a.w0 * 2 ^ (k - 1)) Config.waitMax

/-- A deadline: the tick count plus a wait, modulo 2^32 (R141). -/
def State.deadlineIn (s : State) (wait : Nat) : Tick := s.pdu.tick + BitVec.ofNat 32 wait

/-! ## Settlement (R41, R42) -/

/-- Frees a slot: out of its owner's lists, its FREE values with the reuse count kept, on the head of the free-slot
list (R42). -/
def State.freeSlot (s : State) (n : Nat) (owner : Nat) : State :=
  let s := s.updateRecord owner fun r => { r with live := r.live.erase n, held := r.held.erase n }
  let s := s.putSlot n { s.slot n with message := none }
  let s := { s with msu := { s.msu with free := s.msu.free.push n } }
  s.raiseFree

/-- Steps 2 to 4 of a settlement: out of place, charge, freeing of the slot (R41). The touch-sweep of step 1 stands
before it in the event, and the freeing of the owner after it. -/
def State.settle (s : State) (e : Ending) (n : Nat) : State :=
  match s.message? n with
  | none => s
  | some m =>
    let s := s.takeOut n m.place
    let s := s.updateRecord m.owner fun r => r.settle e m s.pdu.period
    s.freeSlot n m.owner

/-! ## Parking (R146) -/

/-- Parking this slot now settles one: the slot itself when released, or the owner's oldest held slot (R146, R147). -/
def Record.parkSettles (r : Record) (m : Message) : Bool :=
  m.released || decide (Config.heldLimit ≤ r.held.length)

/-- The eviction of the owner's oldest held slot when its held list is full (R146). -/
def State.evictOldest (s : State) (i : Nat) : State :=
  match s.record? i with
  | some r =>
    if Config.heldLimit ≤ r.held.length then
      match r.held with
      | oldest :: _ => s.settle .abandoned oldest
      | [] => s
    else s
  | none => s

/-- A slot in no place becomes HELD: at the tail of its owner's held list and in the timed list, with the hold
deadline (R144, R146). -/
def State.hold (s : State) (n i : Nat) : State :=
  let d := s.deadlineIn (s.aru.hold * Config.minuteTicks)
  let s := s.updateRecord i fun r => { r with held := r.held ++ [n] }
  s.placeTimed n (.held d) d

/-- Parks a slot (R146): a released slot is settled ABANDONED; any other becomes HELD, the oldest held slot first
settled ABANDONED when the held list is full. -/
def State.park (s : State) (n : Nat) : State :=
  match s.message? n with
  | none => s
  | some m =>
    if m.released then s.settle .abandoned n
    else ((s.takeOut n m.place).evictOldest m.owner).hold n m.owner

end Sys2Proof.Machine
end

