-- ==== Sys2Proof/Machine/Transmit.lean ====
section
/-! DEFINITION. The Dispatch Unit (chapter 5): the arbiter, the choice of the zone set, the move, the frame on the
transmitter link, frame completion, and the commands and pin events of the unit.

The takes and the moves that an event makes possible are made in that same event (R108, R120), so every event that can
make one possible ends with `afterTraffic`. ARBITER_TAKE and MOVE_TO_SENDING are the same take and move as rows of
their own. -/

namespace Sys2Proof.Machine
open Sys2Proof

/-! ## The transmitter frame (R186) -/

/-- A number as bits, most significant first. -/
def msbFirst (width n : Nat) : List Bool := (List.range width).map fun i => n.testBit (width - 1 - i)

/-- The bits of a frame on TXD, first to last: 56 header bits and seven for each body character. -/
def TxFrame.bits (f : TxFrame) : List Bool :=
  msbFirst 16 f.zones.toNat ++ msbFirst 20 f.address ++ msbFirst 7 f.tag ++ msbFirst 2 f.cls.code ++ [f.ack] ++
  msbFirst 3 f.attempt ++ msbFirst 7 f.body.length ++ f.body.flatMap fun b => msbFirst 7 b.toNat

/-- The frame on TXD while one is being sent, at REFCLK over 2 × (D + 1); TXD rests low otherwise, a frame whose
completion waits for extract space included (R121, R125). -/
def State.transmitter (s : State) : Option (List Bool × Nat) :=
  if s.completionWaits then none else s.dsu.sending.map fun b => (b.frame.bits, 2 * (b.divider + 1))

/-! ## The zone set (R116, R117) -/

/-- The zone a presence names. -/
def Presence.zone : Presence → ZoneSet
  | .here z => 1#16 <<< z
  | _ => 0

/-- The candidate zone set for attempt `k` (R116). -/
def candidateZones (kind : PagerKind) (k : Nat) (p : Presence) (home service : ZoneSet) : ZoneSet :=
  match kind with
  | .oneWay => home
  | .twoWay =>
    if k = 1 then (match p with | .here z => 1#16 <<< z | _ => home)
    else if k = 2 then home ||| p.zone
    else service

/-- The zone set fixed at staging: the candidate cut to the live zones, widened while that is empty (R117). -/
def fixedZones (kind : PagerKind) (k : Nat) (p : Presence) (home service live : ZoneSet) : ZoneSet :=
  let first := candidateZones kind k p home service &&& live
  if first ≠ 0 then first
  else
    let second := candidateZones kind 2 p home service &&& live
    if kind = .twoWay ∧ k = 1 ∧ second ≠ 0 then second else live

/-! ## The take (R108 to R112) -/

/-- The queue the arbiter serves (R109, R110). -/
def Dsu.serve (d : Dsu) : Option QueueName :=
  let ranks : List QueueName := match d.mode with
    | .fixed => [.urgent, .retry, .normal, .deferred]
    | .rotating => .urgent :: d.rotation
  ranks.find? fun q => !(d.queues.get q).isEmpty

/-- A take in ROTATING mode from RETRY, NORMAL or DEFERRED moves that queue to the last place (R110). -/
def Dsu.rotate (d : Dsu) (q : QueueName) : List QueueName :=
  if d.mode = .rotating ∧ q ≠ .urgent then d.rotation.erase q ++ [q] else d.rotation

/-- The head of a queue leaves it, the rotation order turns, and the slot's origin queue is set (R110, R111). -/
def State.popQueue (s : State) (q : QueueName) (n : Nat) (rest : List Nat) : State :=
  let s := { s with dsu := { s.dsu with queues := s.dsu.queues.set q rest, rotation := s.dsu.rotate q } }
  s.updateMessage n fun m => { m with origin := q }

/-- Stages a slot in no place for its next attempt, with its zone set and frame (R111). -/
def State.stage (s : State) (n : Nat) (m : Message) (r : Record) : State :=
  let k := m.attempts + 1
  let zones := fixedZones m.kind k r.presence r.zones s.dsu.service s.liveZones
  let frame : TxFrame :=
    { zones, address := r.address, tag := m.tag, cls := m.cls, ack := m.kind == .twoWay, attempt := k, body := m.body }
  let s := s.updateMessage n fun m => { m with place := .staged }
  { s with dsu := { s.dsu with staging := some { slot := n, frame } } }

/-- The owner is TWO-WAY and AWAY: its slot is parked (R111). -/
def Record.away (r : Record) : Bool := r.kind == .twoWay && r.presence == .away

/-- A take, on the queues, the live set and the owner as they stand (R111, R112). (A slot on a queue always has a
message and an owner, R31; a number that had none would only leave the queue.) -/
def State.take (s : State) (anew : Bool) : State :=
  match s.dsu.serve with
  | none => s
  | some q =>
    match s.dsu.queues.get q with
    | [] => s
    | n :: rest =>
      match s.message? n with
      | none => s.popQueue q n rest
      | some m =>
        match s.record? m.owner with
        | none => s.popQueue q n rest
        | some r =>
          if r.away then
            if r.parkSettles m then
              match s.touch anew m.owner with
              | none => s.wait anew .arbiter
              | some s => (((s.popQueue q n rest).park n).freeOwner anew m.owner (.alone false)).1
            else (s.popQueue q n rest).park n
          else (s.popQueue q n rest).stage n m r

/-! ## The move (R120) -/

/-- The staged slot moves to sending: SENDING, its frame begun at the divider in force, and the refusal note cleared,
then set where REJECT is high (R120, R121, R128). -/
def State.move (s : State) : State :=
  match s.dsu.staging with
  | none => s
  | some b =>
    let s := s.updateMessage b.slot fun m => { m with place := .sending }
    { s with dsu := { s.dsu with
        staging := none, sending := some { slot := b.slot, frame := b.frame, divider := s.dsu.divider },
        refusal := s.pins.reject } }

/-! ## The end of an event -/

/-- With the outage mark set, a live set that is non-empty clears it and raises ZONE RESTORED (R118), during a TRAFFIC
RESET too (DEDUCED, notes/assumptions/40.md). -/
def State.restoreZones (s : State) : State :=
  if s.dsu.outage ∧ s.liveZones ≠ 0 then
    State.raise { s with dsu := { s.dsu with outage := false } } (.zoneRestored s.liveZones)
  else s

/-- The moves and takes that R120 and R108 allow, one after another, until neither allows one. -/
def dispatchLoop : Nat → State → State
  | 0, s => s
  | k + 1, s =>
    if s.moveAllowed then dispatchLoop k s.move
    else if s.takeAllowed then dispatchLoop k (s.take false)
    else s

/-- Moves and takes until none is allowed: each take shortens a queue or makes the arbiter wait, and a move empties the
staging buffer that a take filled, so the count given here is never used up. -/
def State.dispatch (s : State) : State := dispatchLoop (2 * s.dsu.queues.total + 3) s

/-- Sets the outage mark and raises ZONE OUTAGE when the event leaves traffic held back by zones alone (R118). -/
def State.markOutage (s : State) : State :=
  if s.outageDue then State.raise { s with dsu := { s.dsu with outage := true } } .zoneOutage else s

/-- The three things of R51 hold together: the walk has ended, the sending buffer is empty, and no closing entry begun
by the reset waits. -/
def State.resetDone (s : State) (f : TrafficReset) : Bool :=
  decide (Config.slotCount ≤ f.cursor) && s.dsu.sending.isNone && !s.resetClosingWaits

/-- A TRAFFIC RESET completes in whichever event makes the last of the three true (R51). -/
def State.completeReset (s : State) : State :=
  match s.msu.flush with
  | some f =>
    if s.resetDone f then
      State.complete { s with msu := { s.msu with flush := none } } f.place .ok (nat2 f.flushed ++ nat2 f.freed)
    else s
  | none => s

/-- What every event that touches traffic ends with: the completion of a TRAFFIC RESET (R51), ZONE RESTORED, the moves
and takes, ZONE OUTAGE (R118), and the resumption of a stalled sweep (R161). -/
def State.afterTraffic (s : State) : State :=
  (s.completeReset.restoreZones.dispatch.markOutage).resumeSweep

/-- Starts a command whose effects can make a take or a move possible. -/
def State.startTraffic (s : State) (code tag : Byte) (take : Nat → State → State × Reply) : State :=
  if s.responseFull then s else (s.start code tag take).afterTraffic

/-! ## Frame completion (R50, R123 to R125) -/

/-- The slot's fields after a completion outside a TRAFFIC RESET: unchanged when refused (R123), else attempts raised
and aired set (R124). -/
def Message.afterFrame (m : Message) (refused : Bool) : Message :=
  if refused then m else { m with attempts := m.attempts + 1, aired := true }

/-- The settlement a completion outside a TRAFFIC RESET makes, by the slot's marks and kind (R123, R124). -/
def Message.completionEnding (m : Message) (refused : Bool) : Option Ending :=
  if m.ackPending then some .delivered
  else if m.cancelPending then some .cancelled
  else if refused then none
  else if m.kind = .oneWay then some .delivered
  else none

/-- A completion that settles its slot, after the touch-sweep it may need (R125). -/
def State.settleCompletion (s : State) (anew : Bool) (n : Nat) (m : Message) (e : Ending) : State :=
  match s.touch anew m.owner with
  | none => s.wait anew .completion
  | some s =>
    ((((s.updateMessage n fun _ => m).settle e n)).freeOwner anew m.owner (.alone false)).1

/-- A slot settled FLUSHED counts in the response of the TRAFFIC RESET (R51). -/
def State.countFlushed (s : State) : State :=
  { s with msu := { s.msu with flush := s.msu.flush.map fun (f : TrafficReset) => { f with flushed := f.flushed + 1 } } }

/-- A completion during a TRAFFIC RESET: its slot is settled FLUSHED, aired flag and attempts unchanged (R50). -/
def State.flushCompletion (s : State) (anew : Bool) (n : Nat) (m : Message) : State :=
  match s.touch anew m.owner with
  | none => s.wait anew .completion
  | some s =>
    let s := s.settle .flushed n
    (s.countFlushed.freeOwner anew m.owner (.alone true)).1

/-- The completion of the frame in the sending buffer (R50, R123 to R125). -/
def State.completeFrame (s : State) (anew : Bool) : State :=
  match s.dsu.sending with
  | none => s
  | some b =>
    match s.message? b.slot with
    | none => { s with dsu := { s.dsu with sending := none } }
    | some m =>
      if s.resetting then s.flushCompletion anew b.slot m
      else
        let m' := m.afterFrame s.dsu.refusal
        match m.completionEnding s.dsu.refusal with
        | some e => s.settleCompletion anew b.slot m' e
        | none =>
          let s' := { s with dsu := { s.dsu with sending := none } }
          if s.dsu.refusal then
            State.requeue (s'.updateMessage b.slot fun _ => { m' with place := .queued }) m'.origin b.slot
          else
            let d := s'.deadlineIn (s'.aru.ackWait m'.attempts)
            (s'.updateMessage b.slot fun _ => m').placeTimed b.slot (.awaiting d) d

/-! ## Commands (R114, R115, R121, R122, R126) -/

/-- SET ZONES (R114). -/
def takeSetZones (zones : ZoneSet) (s : State) : State × Reply :=
  let s := { s with dsu := { s.dsu with service := zones } }
  (s, .now .ok (bytes2 s.liveZones))

/-- Writes an override for every zone of a set; the others keep theirs. -/
def setOverrides (overrides : List Override) (zones : ZoneSet) (v : Override) : List Override :=
  overrides.zipIdx.map fun p => if zones.getLsbD p.2 then v else p.1

/-- SET OVERRIDE (R114). -/
def takeSetOverride (zones : ZoneSet) (value : Byte) (s : State) : State × Reply :=
  match overrideOf value with
  | none => (s, .now .badField [])
  | some v =>
    let s := { s with dsu := { s.dsu with overrides := setOverrides s.dsu.overrides zones v } }
    (s, .now .ok (bytes2 s.liveZones))

/-- ZONE STATUS (R115). -/
def takeZoneStatus (s : State) : State × Reply :=
  (s, .now .ok (nat1 16 ++ (List.range 16).flatMap (fun z =>
      flag1 (s.pins.zst.getLsbD z) ++ nat1 (s.dsu.overrides.getD z .follow).code ++
      flag1 (s.dsu.service.getLsbD z) ++ flag1 (s.zoneLive z)) ++
    bytes2 s.dsu.service ++ bytes2 s.liveZones ++ flag1 s.dsu.outage))

/-- SET TRANSMITTER (R121): the divider applies from the next move. -/
def takeSetTransmitter (d : Byte) (s : State) : State × Reply :=
  ({ s with dsu := { s.dsu with divider := d.toNat } }, .now .ok [d])

/-- HOLD DISPATCH (R122). -/
def takeHoldDispatch (value : Byte) (s : State) : State × Reply :=
  match switchOf value with
  | none => (s, .now .badField [])
  | some on =>
    ({ s with dsu := { s.dsu with hold := on } },
      .now .ok (flag1 on ++ flag1 s.pins.ehold ++ flag1 s.dsu.sending.isSome))

/-- The three codes of the rotation order. -/
def rotationBytes (rotation : List QueueName) : List Byte := rotation.flatMap fun q => nat1 q.code

/-- SET ARBITER (R126). -/
def takeSetArbiter (mode : Byte) (s : State) : State × Reply :=
  match arbiterOf mode with
  | none => (s, .now .badField [])
  | some m =>
    ({ s with dsu := { s.dsu with mode := m } }, .now .ok (nat1 m.code ++ rotationBytes s.dsu.rotation))

/-- A buffer in DISPATCH STATUS: slot reference, zone set and attempt number, or empty. -/
def State.bufferBytes (s : State) (b : Option (Nat × TxFrame)) : List Byte :=
  optionalBytes 5 (fun b => nat2 (s.reference b.1) ++ bytes2 b.2.zones ++ nat1 b.2.attempt) b

/-- DISPATCH STATUS (R126). The counts of the queues stand in the order URGENT, NORMAL, DEFERRED, RETRY as plain fields,
without the count byte of a list (DESIGN CHOICE, notes/assumptions/41.md). -/
def takeDispatchStatus (s : State) : State × Reply :=
  let q := s.dsu.queues
  (s, .now .ok (nat2 q.urgent.length ++ nat2 q.normal.length ++ nat2 q.deferred.length ++ nat2 q.retry.length ++
    nat1 s.dsu.mode.code ++ rotationBytes s.dsu.rotation ++
    s.bufferBytes (s.dsu.staging.map fun b => (b.slot, b.frame)) ++
    s.bufferBytes (s.dsu.sending.map fun b => (b.slot, b.frame)) ++
    flag1 s.dsu.hold ++ flag1 s.pins.ehold ++ flag1 s.pins.ready ++ flag1 s.dsu.outage ++ flag1 s.resetting ++
    flag1 s.arbiterWaits ++ flag1 s.completionWaits ++ nat1 s.dsu.divider))

/-- SET ZONES started on the command link. -/
def startSetZones (tag : Byte) (zones : ZoneSet) (s : State) : State :=
  s.startTraffic 0x50 tag fun _ => takeSetZones zones

/-- SET OVERRIDE started on the command link. -/
def startSetOverride (tag : Byte) (zones : ZoneSet) (value : Byte) (s : State) : State :=
  s.startTraffic 0x51 tag fun _ => takeSetOverride zones value

/-- ZONE STATUS started on the command link. -/
def startZoneStatus (tag : Byte) (s : State) : State := s.start 0x52 tag fun _ => takeZoneStatus

/-- SET TRANSMITTER started on the command link. -/
def startSetTransmitter (tag d : Byte) (s : State) : State := s.start 0x53 tag fun _ => takeSetTransmitter d

/-- HOLD DISPATCH started on the command link. -/
def startHoldDispatch (tag value : Byte) (s : State) : State := s.startTraffic 0x54 tag fun _ => takeHoldDispatch value

/-- SET ARBITER started on the command link. -/
def startSetArbiter (tag mode : Byte) (s : State) : State := s.start 0x55 tag fun _ => takeSetArbiter mode

/-- DISPATCH STATUS started on the command link. -/
def startDispatchStatus (tag : Byte) (s : State) : State := s.start 0x56 tag fun _ => takeDispatchStatus

/-! ## Meanings -/

/-- SET_ZONES (R114). -/
def execSetZones (tag : Byte) (zones : ZoneSet) (s : State) : Answer := .next (startSetZones tag zones s)

/-- SET_OVERRIDE (R114). -/
def execSetOverride (tag : Byte) (zones : ZoneSet) (value : Byte) (s : State) : Answer :=
  .next (startSetOverride tag zones value s)

/-- ZONE_STATUS (R115). -/
def execZoneStatus (tag : Byte) (s : State) : Answer := .next (startZoneStatus tag s)

/-- SET_TRANSMITTER (R121). -/
def execSetTransmitter (tag d : Byte) (s : State) : Answer := .next (startSetTransmitter tag d s)

/-- HOLD_DISPATCH (R122). -/
def execHoldDispatch (tag value : Byte) (s : State) : Answer := .next (startHoldDispatch tag value s)

/-- SET_ARBITER (R126). -/
def execSetArbiter (tag mode : Byte) (s : State) : Answer := .next (startSetArbiter tag mode s)

/-- DISPATCH_STATUS (R126). -/
def execDispatchStatus (tag : Byte) (s : State) : Answer := .next (startDispatchStatus tag s)

/-- ARBITER_TAKE (R108, R111): when R108 allows it. -/
def execArbiterTake (s : State) : Answer := .next (if s.takeAllowed then (s.take false).afterTraffic else s)

/-- MOVE_TO_SENDING (R120): when R120 allows it. -/
def execMoveToSending (s : State) : Answer := .next (if s.moveAllowed then s.move.afterTraffic else s)

/-- FRAME_COMPLETION (R123 to R125, R50): the last bit of the frame being sent has gone. With no frame being sent, or
with the completion already waiting for extract space, there is no such event. -/
def execFrameCompletion (s : State) : Answer :=
  .next (if s.dsu.sending.isSome && !s.completionWaits then (s.completeFrame false).afterTraffic else s)

/-- READY_CHANGE (R120). -/
def execReadyChange (level : Bool) (s : State) : Answer :=
  .next (State.afterTraffic { s with pins := { s.pins with ready := level } })

/-- REJECT_RISE (R121): REJECT high while a frame is being sent sets the refusal note; with the sending buffer empty,
or once the last bit has been sent and the completion waits (R125), it does not. -/
def execRejectRise (level : Bool) (s : State) : Answer :=
  .next { s with
    pins := { s.pins with reject := level }
    dsu := { s.dsu with
      refusal := s.dsu.refusal || (level && s.dsu.sending.isSome && !s.completionWaits) } }

/-- EHOLD_CHANGE (R122). -/
def execEholdChange (level : Bool) (s : State) : Answer :=
  .next (State.afterTraffic { s with pins := { s.pins with ehold := level } })

/-- A zone set with one zone's bit at a level. -/
def setZone (zones : ZoneSet) (z : Nat) (level : Bool) : ZoneSet :=
  if level then zones ||| (1#16 <<< z) else zones &&& ~~~(1#16 <<< z)

/-- ZONE_STATUS_CHANGE (R113). -/
def execZoneStatusChange (zone : Fin 16) (level : Bool) (s : State) : Answer :=
  .next (State.afterTraffic { s with pins := { s.pins with zst := setZone s.pins.zst zone.val level } })

end Sys2Proof.Machine
end

