-- ==== Sys2Proof/Machine/Returns.lean ====
section
/-! DEFINITION. The Return Link Receivers and the Acknowledgement and Retry Unit (chapter 6): the assembly of reports,
the taking of a report, expiry, the retry policy, and the commands of the links. -/

namespace Sys2Proof.Machine
open Sys2Proof

/-! ## Assembly of reports (R130 to R132) -/

/-- The bit-rate divisor 2N + 2 + E of a return link: the rate is REFCLK over sixteen times it (R130). -/
def Receiver.divisor (r : Receiver) : Nat := 2 * r.n + 2 + r.e

/-- What a return link samples of one character on RXD: eight data bits least significant first, one byte of a report,
with no mark bit (R130, R187). RETURN_CHARACTER_RECEIVED carries it. -/
def Receiver.sampled (r : Receiver) (bits : List Bool) : Option Sampled := sampleCharacter false r.parity bits

/-- A count that stops at 65,535 (R129). -/
def bump (n : Nat) : Nat := min (n + 1) Config.countMax

/-- The report of seven characters; none when it is ill formed (R131, R187). -/
def reportOf : List Byte → Option Report
  | [_, kind, a2, a1, a0, tag, zone] =>
    let address := (join3 a2 a1 a0).toNat
    if address = 0 ∨ Config.addressMax < address ∨ 15 < zone.toNat then none
    else if kind = 0x01 then
      if 127 < tag.toNat then none else some (.ack address tag.toNat zone.toNat)
    else if kind = 0x02 then some (.register address zone.toNat)
    else if kind = 0x03 then some (.leave address zone.toNat)
    else none
  | _ => none

/-- No report in assembly, the timer stopped. -/
def Receiver.clearAssembly (r : Receiver) : Receiver := { r with chars := [], spoiled := false, timer := none }

/-- A report is offered to the link's FIFO: it joins the tail, or is dropped, the first drop of an episode raising
REPORT DROPPED (R132). -/
def State.offerReport (s : State) (l : Link) (rep : Report) : State :=
  let r := s.receiver l
  if r.fifo.length < Config.reportFifo then s.putReceiver l { r with fifo := r.fifo ++ [rep] }
  else
    let s' := s.putReceiver l { r with dropped := bump r.dropped, episode := true }
    if r.episode then s' else s'.raise (.reportDropped l)

/-- The seventh character ends the report: rejected, or offered to the FIFO (R131). -/
def State.endReport (s : State) (l : Link) (chars : List Byte) (spoiled : Bool) : State :=
  let r := { (s.receiver l).clearAssembly with state := .hunting }
  match reportOf chars, spoiled with
  | some rep, false => (s.putReceiver l r).offerReport l rep
  | _, _ => s.putReceiver l { r with rejected := bump r.rejected }

/-- A character completes on a link (R130, R131). -/
def State.returnCharacter (s : State) (l : Link) (data : Byte) (bad : Bool) : State :=
  let r := s.receiver l
  match r.state with
  | .disabled => s
  | .hunting =>
    if data = 0xA5 ∧ bad = false then
      s.putReceiver l { r with state := .assembling, chars := [data], spoiled := false, timer := some 0 }
    else s
  | .assembling =>
    let chars := r.chars ++ [data]
    let spoiled := r.spoiled || bad
    if 7 ≤ chars.length then s.endReport l chars spoiled
    else s.putReceiver l { r with chars, spoiled, timer := some 0 }

/-- The report in assembly times out: discarded, counted rejected, the link HUNTING (R131). -/
def State.timeOutReport (s : State) (l : Link) : State :=
  let r := s.receiver l
  s.putReceiver l { r.clearAssembly with state := .hunting, rejected := bump r.rejected }

/-- The inter-character timer of a link has counted 3 tick events (R131). -/
def Receiver.timedOut (r : Receiver) : Bool :=
  r.state == .assembling && r.timer.any fun n => decide (Config.reportTicks ≤ n)

/-! ## Taking a report (R135 to R140) -/

/-- The head report leaves its FIFO; the removal that leaves it empty clears the drop episode mark (R132, R135). -/
def State.popReport (s : State) (l : Link) : State :=
  let r := s.receiver l
  let fifo := r.fifo.tail
  s.putReceiver l { r with fifo, episode := r.episode && !fifo.isEmpty }

/-- A report sets the presence of a record (R137, R139, R140). -/
def State.setPresence (s : State) (i : Nat) (p : Presence) : State := s.updateRecord i fun r => { r with presence := p }

/-- The aired slot of a record's live list that carries a tag (R137). -/
def State.ackedSlot (s : State) (r : Record) (tag : Nat) : Option (Nat × Message) :=
  (r.live.find? fun n => (s.message? n).any fun m => m.tag == tag).bind fun n =>
    (s.message? n).bind fun m => if m.aired then some (n, m) else none

/-- An ACK taken at a TWO-WAY record (R136 to R138): presence HERE; a matched slot that is SENDING is marked
ack-pending, and any other is settled DELIVERED, the report waiting where an entry finds no room. -/
def State.takeAck (s : State) (anew : Bool) (l : Link) (i : Nat) (r : Record) (tag zone : Nat) : State :=
  match s.ackedSlot r tag with
  | none => (s.setPresence i (.here zone)).popReport l
  | some (n, m) =>
    match m.place with
    | .sending =>
      ((s.setPresence i (.here zone)).updateMessage n fun m => { m with ackPending := true }).popReport l
    | _ =>
      match s.touch anew i with
      | none => s.wait anew (.report l)
      | some s =>
        match ((s.setPresence i (.here zone)).settle .delivered n).freeOwner anew i (.report l) with
        | (s, true) => s
        | (s, false) => s.popReport l

/-- One held slot is released: out of the timed list, attempts 0 and the released flag set, at the tail of RETRY
(R139). -/
def State.releaseSlot (s : State) (n : Nat) : State :=
  let s := { s with aru := { s.aru with timed := s.aru.timed.erase n } }
  let s := s.updateMessage n fun m => { m with place := .queued, attempts := 0, released := true }
  s.enqueue .retry n

/-- A REGISTER taken at a TWO-WAY record: presence HERE and every held slot released, oldest first (R139). -/
def State.takeRegister (s : State) (i : Nat) (r : Record) (zone : Nat) : State :=
  let s := s.updateRecord i fun r => { r with presence := .here zone, held := [] }
  r.held.foldl State.releaseSlot s

/-- The pager address a report carries. -/
def Report.address : Report → Nat
  | .ack a _ _ | .register a _ | .leave a _ => a

/-- The report at the head of a link's FIFO is taken (R135). -/
def State.takeReport (s : State) (anew : Bool) (l : Link) : State :=
  match (s.receiver l).fifo with
  | [] => s
  | rep :: _ =>
    if s.ready then
      match s.findAddress rep.address with
      | none => s.popReport l
      | some i =>
        match s.record? i with
        | none => s.popReport l
        | some r =>
          if r.kind = .oneWay then s.popReport l
          else
            match rep with
            | .ack _ tag zone => s.takeAck anew l i r tag zone
            | .register _ zone => (s.takeRegister i r zone).popReport l
            | .leave _ _ => (s.setPresence i .away).popReport l
    else s.popReport l

/-! ## Expiry (R143 to R148) -/

/-- The head of the timed list, when due, expires: an AWAITING slot is retried or parked, and a HELD slot is settled
ABANDONED; the expiry waits where a settlement's entry finds no room (R145, R147, R148). -/
def State.expire (s : State) (anew : Bool) : State :=
  match s.dueHead with
  | none => s
  | some n =>
    match s.message? n with
    | none => s
    | some m =>
      match s.record? m.owner with
      | none => s
      | some r =>
        match m.place with
        | .held _ =>
          match s.touch anew m.owner with
          | none => s.wait anew .expiry
          | some s => ((s.settle .abandoned n).freeOwner anew m.owner .expiry).1
        | _ =>
          if m.attempts < s.aru.aMax ∧ r.presence ≠ .away then
            let s := { s with aru := { s.aru with timed := s.aru.timed.erase n } }
            (s.updateMessage n fun m => { m with place := .queued }).enqueue .retry n
          else if r.parkSettles m then
            match s.touch anew m.owner with
            | none => s.wait anew .expiry
            | some s => ((s.park n).freeOwner anew m.owner .expiry).1
          else s.park n

/-! ## Commands (R133, R134, R149, R150) -/

/-- SET RETURN LINK (R133). -/
def takeSetReturnLink (a : LinkArgs) (s : State) : State × Reply :=
  match linkOf a.link, parityOf a.parity with
  | some l, some p =>
    if 4095 < a.n.toNat ∨ 1 < a.e.toNat then (s, .now .badField [])
    else if (s.receiver l).state ≠ .disabled then (s, .now .linkActive [])
    else (s.putReceiver l { s.receiver l with n := a.n.toNat, e := a.e.toNat, parity := p }, .now .ok [])
  | _, _ => (s, .now .badField [])

/-- ENABLE RETURN LINK (R134, R102). A poll character that line 3 had begun before its DISABLE is sent whole beside it
(DEDUCED, notes/assumptions/27.md). -/
def takeEnableReturnLink (link : Byte) (s : State) : State × Reply :=
  match linkOf link with
  | none => (s, .now .badField [])
  | some l =>
    let r := s.receiver l
    if r.state ≠ .disabled then (s, .now .ok (nat1 r.state.code))
    else if l = .b ∧ (s.line 3).active then (s, .now .lineActive [])
    else (s.putReceiver l { r with state := .hunting, dropped := 0, rejected := 0 }, .now .ok (nat1 LinkState.hunting.code))

/-- DISABLE RETURN LINK (R134). -/
def takeDisableReturnLink (link : Byte) (s : State) : State × Reply :=
  match linkOf link with
  | none => (s, .now .badField [])
  | some l =>
    let r := s.receiver l
    (if r.state = .disabled then s else s.putReceiver l { r.clearAssembly with state := .disabled },
      .now .ok (nat1 LinkState.disabled.code))

/-- SET RETRY (R149). -/
def takeSetRetry (w0 : BitVec 16) (aMax : Byte) (hold : BitVec 16) (s : State) : State × Reply :=
  let w := max 10 (min w0.toNat 600)
  let a := max 1 (min aMax.toNat 7)
  let h := max 1 hold.toNat
  ({ s with aru := { s.aru with w0 := w, aMax := a, hold := h } },
    .now .ok (nat2 w ++ nat1 a ++ nat2 h ++
      [clampBits [decide (w ≠ w0.toNat), decide (a ≠ aMax.toNat), decide (h ≠ hold.toNat)]]))

/-- One link in RETURN STATUS; for link B, whether it holds line 3's pins (R150). -/
def State.linkBytes (s : State) (l : Link) : List Byte :=
  let r := s.receiver l
  nat1 r.state.code ++ nat2 r.n ++ nat1 r.e ++ nat1 r.parity.code ++ nat1 r.fifo.length ++ flag1 r.episode ++
  nat2 r.dropped ++ nat2 r.rejected ++ flag1 (s.reportWaits l) ++
  match l with
  | .a => []
  | .b => flag1 s.linkBEnabled

/-- RETURN STATUS (R150). Its waiting flags are also set while only the closing entry that a report's or an expiry's
settlement began waits (DESIGN CHOICE, notes/assumptions/42.md). -/
def takeReturnStatus (s : State) : State × Reply :=
  (s, .now .ok (nat1 2 ++ s.linkBytes .a ++ s.linkBytes .b ++ nat2 s.aru.w0 ++ nat1 s.aru.aMax ++ nat2 s.aru.hold ++
    nat2 s.aru.timed.length ++ optionalBytes 4 bytes4 (s.aru.timed.head?.map s.deadlineOf) ++ bytes4 s.pdu.tick ++
    flag1 s.expiryWaits))

/-- SET RETURN LINK started on the command link. -/
def startSetReturnLink (tag : Byte) (a : LinkArgs) (s : State) : State := s.start 0x60 tag fun _ => takeSetReturnLink a

/-- ENABLE RETURN LINK started on the command link. -/
def startEnableReturnLink (tag link : Byte) (s : State) : State := s.start 0x61 tag fun _ => takeEnableReturnLink link

/-- DISABLE RETURN LINK started on the command link. -/
def startDisableReturnLink (tag link : Byte) (s : State) : State :=
  s.start 0x62 tag fun _ => takeDisableReturnLink link

/-- SET RETRY started on the command link. -/
def startSetRetry (tag : Byte) (w0 : BitVec 16) (aMax : Byte) (hold : BitVec 16) (s : State) : State :=
  s.start 0x63 tag fun _ => takeSetRetry w0 aMax hold

/-- RETURN STATUS started on the command link. -/
def startReturnStatus (tag : Byte) (s : State) : State := s.start 0x64 tag fun _ => takeReturnStatus

/-! ## Meanings -/

/-- SET_RETURN_LINK (R133). -/
def execSetReturnLink (tag : Byte) (a : LinkArgs) (s : State) : Answer := .next (startSetReturnLink tag a s)

/-- ENABLE_RETURN_LINK (R134). -/
def execEnableReturnLink (tag link : Byte) (s : State) : Answer := .next (startEnableReturnLink tag link s)

/-- DISABLE_RETURN_LINK (R134). -/
def execDisableReturnLink (tag link : Byte) (s : State) : Answer := .next (startDisableReturnLink tag link s)

/-- SET_RETRY (R149). -/
def execSetRetry (tag : Byte) (w0 : BitVec 16) (aMax : Byte) (hold : BitVec 16) (s : State) : Answer :=
  .next (startSetRetry tag w0 aMax hold s)

/-- RETURN_STATUS (R150). -/
def execReturnStatus (tag : Byte) (s : State) : Answer := .next (startReturnStatus tag s)

/-- RETURN_CHARACTER_RECEIVED (R130, R131): bad with a framing error or a parity error. -/
def execReturnCharacterReceived (l : Link) (data : Byte) (parity stop : Bool) (s : State) : Answer :=
  .next (s.returnCharacter l data (!stop || parityError (s.receiver l).parity data none parity))

/-- REPORT_TIMEOUT (R131): when the timer has counted 3 tick events. -/
def execReportTimeout (l : Link) (s : State) : Answer :=
  .next (if (s.receiver l).timedOut then s.timeOutReport l else s)

/-- REPORT_TAKEN (R135): when the link has a report and none of its waits. -/
def execReportTaken (l : Link) (s : State) : Answer :=
  .next (if !(s.receiver l).fifo.isEmpty && !s.reportWaits l then (s.takeReport false l).afterTraffic else s)

/-- EXPIRY (R143): when the head of the timed list is due and no expiry waits. -/
def execExpiry (s : State) : Answer :=
  .next (if s.dueHead.isSome && !s.expiryWaits then (s.expire false).afterTraffic else s)

end Sys2Proof.Machine
end

