-- ==== Sys2Proof/Machine/Accept.lean ====
section
/-! DEFINITION. Acceptance (4.6): the seven checks, the touch-sweep, the slot, the reservation and the placement, shared
by the intake lines and SUBMIT; and the SUBMIT command (R103). -/

namespace Sys2Proof.Machine
open Sys2Proof

/-- A body valid for a class (R92). -/
def bodyValid (cls : ServiceClass) (body : List Byte) : Bool :=
  match cls with
  | .tone => body.isEmpty
  | .numeric =>
    decide (body.length ≤ 24) && body.all fun b =>
      (decide (0x30 ≤ b.toNat) && decide (b.toNat ≤ 0x39)) || b == 0x20 || b == 0x2D || b == 0x2E
  | .alpha =>
    decide (body.length ≤ Config.bodyLimit) && body.all fun b =>
      decide (0x20 ≤ b.toNat) && decide (b.toNat ≤ 0x7E)

/-- The store has room: the free count is above 0, and above 64 unless the priority is URGENT (R37). -/
def State.storeRoom (s : State) (p : Priority) : Bool :=
  decide (0 < s.msu.freeCount) && (p == .urgent || decide (Config.lowWater < s.msu.freeCount))

/-- What the seven checks of R91 find. -/
inductive Judgement where
  /-- The first check that fails, with the figures that NO CREDIT and OVER CEILING carry (R61). -/
  | fail (why : Result) (figures : List Byte)
  /-- All pass: the record and the priced charge. -/
  | pass (index charge : Nat)
  deriving DecidableEq, Repr

/-- The record's counters as the touch-sweep it needs, if any, would leave them (R56). -/
def State.asTouched (s : State) (r : Record) : Record :=
  if s.needsTouch r then r.closePeriod s.pdu.period else r

/-- The seven checks in their order (R91), on the state as it stands. An acceptance that waited through a TRAFFIC RESET
and has its turn after the reset completed is judged on that state like any other (DEDUCED,
notes/assumptions/39.md). -/
def State.judge (s : State) (sub : Submission) : Judgement :=
  if s.resetting || !s.ready then .fail .serviceClosed []
  else
    match s.findNumber sub.number with
    | none => .fail .unknownSubscriber []
    | some i =>
      match s.record? i with
      | none => .fail .unknownSubscriber []
      | some r =>
        if r.state ≠ .active then .fail .notInService []
        else if bodyValid r.cls sub.body = false then .fail .bodyInvalid []
        else if Config.liveLimit ≤ r.live.length then .fail .subscriberFull []
        else if s.storeRoom sub.priority = false then .fail .storeFull []
        else
          let t := s.asTouched r
          let c := s.chu.priceFor t sub.body.length sub.priority
          if t.creditPasses c then .pass i c
          else .fail t.creditRefusal (nat2 c ++ nat3 t.available)

/-- The outcome of an acceptance. -/
inductive Acceptance where
  | refused (why : Result) (figures : List Byte)
  | waits
  | made (slot index charge : Nat) (held : Bool)
  deriving DecidableEq, Repr

/-- The placement of the slot an acceptance has been given: parked for a TWO-WAY owner that is AWAY, else at the tail
of the queue of its priority (R94). -/
def State.placeAccepted (s : State) (n : Nat) (p : Priority) (held : Bool) : State :=
  if held then s.park n else s.enqueue p.queue n

/-- An acceptance (R91 to R94): refused by its checks, or touch-sweep, slot, reservation and placement in one event,
or waiting among the waiters for extract space. -/
def State.accept (s : State) (anew : Bool) (w : Waiter) (src : Source) (sub : Submission) : State × Acceptance :=
  match s.judge sub with
  | .fail why figures => (s, .refused why figures)
  | .pass i c =>
    match s.touch anew i with
    | none => (s.wait anew w, .waits)
    | some s =>
      match s.record? i, s.msu.free.take with
      | some r, some (n, free) =>
        let s := s.allocate n free i r src sub.priority sub.body c
        (s.placeAccepted n sub.priority r.away, .made n i c r.away)
      | _, _ => (s, .refused .storeFull [])

/-- The code of a placement in the response to SUBMIT (9.6). -/
def placementCode (held : Bool) : Nat := if held then 5 else 1

/-- SUBMIT (R103). -/
def takeSubmit (anew : Bool) (place : Nat) (a : SubmitArgs) (s : State) : State × Reply :=
  match priorityOf a.priority with
  | none => (s, .now .badField [])
  | some p =>
    if numberInRange a.number = false ∨ Config.bodyLimit < a.body.length then (s, .now .badField [])
    else
      match s.accept anew (.command place (.submit a)) .commandLink { number := a.number.toNat, priority := p, body := a.body } with
      | (s, .refused why figures) => (s, .now why figures)
      | (s, .waits) => (s, .later)
      | (s, .made n i c held) => (s, .now .ok (nat2 (s.reference n) ++ nat2 c ++ nat2 i ++ nat1 (placementCode held)))

/-- SUBMIT started on the command link. -/
def startSubmit (tag : Byte) (a : SubmitArgs) (s : State) : State :=
  s.startTraffic 0x44 tag fun place => takeSubmit false place a

/-- SUBMIT (R103). -/
def execSubmit (tag : Byte) (a : SubmitArgs) (s : State) : Answer := .next (startSubmit tag a s)

end Sys2Proof.Machine
end

