-- ==== Sys2Proof/Machine/Lines.lean ====
section
/-! DEFINITION. The Intake Line Units (chapter 4): reception, the assembly of frames, acceptance requests and replies,
polling, and the commands of the lines. -/

namespace Sys2Proof.Machine
open Sys2Proof

/-! ## Characters on TXD and RXD (R78, R79, R185) -/

/-- The bit-rate divisor 2N + 2 + E: the rate is REFCLK over sixteen times it (R78). -/
def Line.divisor (l : Line) : Nat := 2 * l.n + 2 + l.e

/-- A character as the line sends it: start bit, data bits least significant first, the mark bit in POLLED mode,
the parity bit unless NONE, and the stop bits (R79). -/
def Line.characterBits (l : Line) (data : Byte) (mark : Bool) : List Bool :=
  let markBit := if l.mode = .polled then some mark else none
  [false] ++ lsbFirst data ++ markBit.toList ++
    (parityBit l.parity data markBit).toList ++ List.replicate l.stop true

/-- What the line's receiver samples of one character on RXD (R79): INTAKE_CHARACTER_RECEIVED carries it. -/
def Line.sampled (l : Line) (bits : List Bool) : Option Sampled :=
  sampleCharacter (decide (l.mode = .polled)) l.parity bits

/-- The poll address character of a station: its number in the low five bits, mark bit set (R185). It is read in the
settings that stand, for a poll begun before a SET LINE too (DESIGN CHOICE, notes/assumptions/43.md). -/
def Line.pollBits (l : Line) (station : Nat) : List Bool := l.characterBits (BitVec.ofNat 8 station) true

/-- The reply as the line sends it on TXD: each character in the line's format, with the mark bit clear on a POLLED
line (R79, R185). -/
def Line.replyBits (l : Line) : List Bool := l.reply.flatMap fun c => l.characterBits c false

/-- Five decimal digit characters, most significant first (R95, R185). -/
def digits5 (n : Nat) : List Byte :=
  [n / 10000, n / 1000, n / 100, n / 10, n].map fun d => BitVec.ofNat 8 (0x30 + d % 10)

/-- The reply to an accepted frame (R95). -/
def acceptedReply (reference : Nat) : List Byte := 0x06 :: (digits5 reference ++ [0x04])

/-- The reply to a refused or faulty frame (R95). -/
def refusedReply (letter : Byte) : List Byte := [0x15, letter, 0x04]

/-- The reply letter of a refusal at acceptance (R91, R185). -/
def refusalLetter : Result → Byte
  | .serviceClosed => 0x58
  | .unknownSubscriber => 0x55
  | .notInService => 0x53
  | .bodyInvalid => 0x42
  | .subscriberFull => 0x46
  | .storeFull => 0x4D
  | .noCredit => 0x43
  | .overCeiling => 0x4C
  | _ => 0x45

/-! ## Line states (R77, R96, R100) -/

/-- Sends a poll to the station at the current position (R96). -/
def Line.pollCurrent (l : Line) : Line := { l with polls := l.polls ++ [l.stations.getD l.current 0] }

/-- In POLLED mode the station wait timer stops, the current station moves to the next position, wrapping, and is
polled (R96). -/
def Line.moveOn (l : Line) : Line :=
  if l.mode = .polled then
    Line.pollCurrent { l with stationTimer := none, current := (l.current + 1) % l.stations.length }
  else l

/-- No frame, request or reply in hand, the inter-character timer stopped. -/
def Line.clearExchange (l : Line) : Line :=
  { l with frame := none, request := none, interTimer := none, reply := [] }

/-- The line stops polling: a poll character whose sending has begun is sent whole, and one that waits for TXD is not
sent (R83, R96). -/
def Line.stopPolling (l : Line) : Line := { l with stationTimer := none, polls := l.polls.take 1 }

/-- The line becomes DISABLED: its FIFO emptied, both timers stopped, the disable-pending mark cleared (R80, R100). -/
def Line.disable (l : Line) : Line :=
  { l.clearExchange.stopPolling with state := .disabled, fifo := [], disablePending := false }

/-- The point where an exchange ends: the line enters IDLE, a POLLED one moving on, or DISABLED with the
disable-pending mark set (R77, R96, R100). -/
def Line.endExchange (l : Line) : Line :=
  if l.disablePending then l.disable else Line.moveOn { l.clearExchange with state := .idle }

/-- The line sends a reply and is REPLYING (R95). -/
def Line.sendReply (l : Line) (chars : List Byte) : Line :=
  { l.clearExchange with state := .replying, reply := chars }

/-! ## The frame in assembly (R85 to R90) -/

/-- A new frame: the lead counted, the sum 0 (R85). -/
def Frame.begun (spoiled : Bool) : Frame := { chars := [], count := 1, sum := 0, spoiled, terminated := false }

def Frame.kind (f : Frame) : Option Byte := f.chars[0]?
def Frame.digits (f : Frame) : List Byte := (f.chars.drop 1).take 7
def Frame.priorityChar (f : Frame) : Option Byte := f.chars[8]?
def Frame.body (f : Frame) : List Byte := f.chars.drop 9

/-- '0' to '9'. -/
def isDigit (b : Byte) : Bool := decide (0x30 ≤ b.toNat) && decide (b.toNat ≤ 0x39)

/-- The priority of 'U', 'N' or 'D' (R86). -/
def priorityOfChar (b : Byte) : Option Priority :=
  if b = 0x55 then some .urgent else if b = 0x4E then some .normal else if b = 0x44 then some .deferred else none

/-- The subscriber number that decimal digit characters name. -/
def decimal (ds : List Byte) : Nat := ds.foldl (fun acc d => acc * 10 + (d.toNat - 0x30)) 0

/-- The submission of a frame that is not malformed (R86, R90). -/
def Frame.submission (f : Frame) : Option Submission :=
  if f.kind = some 0x50 ∧ 9 ≤ f.chars.length ∧ f.digits.all isDigit ∧ f.body.length ≤ Config.bodyLimit then
    (f.priorityChar.bind priorityOfChar).map fun p => { number := decimal f.digits, priority := p, body := f.body }
  else none

/-- A character placed in the frame before its check character: counted, and added to the sum modulo 128; a bad one
spoils the frame (R81, R86, R87). A good 0x04 is the terminator. -/
def Frame.place (f : Frame) (c : RxChar) : Frame :=
  let terminator := c.data == 0x04 && !c.bad
  { chars := if terminator then f.chars else f.chars ++ [c.data]
    count := f.count + 1
    sum := (f.sum + c.data.toNat) % 128
    spoiled := f.spoiled || c.bad
    terminated := terminator }

/-- The frame begun by a good lead (R85). -/
def Line.beginFrame (l : Line) : Line :=
  { l with state := .assembling, frame := some (.begun false), interTimer := some 0, stationTimer := none }

/-- The check character ends the frame (R90). -/
def Line.endFrame (l : Line) (f : Frame) (c : RxChar) : Line :=
  match f.submission with
  | some sub =>
    if f.spoiled || c.bad || c.data.toNat != f.sum then l.sendReply (refusedReply 0x45)
    else { l.clearExchange with state := .awaitingAcceptance, request := some sub }
  | none => l.sendReply (refusedReply 0x45)

/-- A character taken while IDLE: a good lead begins a frame, a good 0x05 on a POLLED line ends the station's wait,
and any other is discarded (R85, R97). -/
def Line.takeIdle (l : Line) (c : RxChar) : Line :=
  if c.data = 0x01 ∧ c.bad = false then l.beginFrame
  else if c.data = 0x05 ∧ c.bad = false then l.moveOn
  else l

/-- A character taken while ASSEMBLING (R85, R86, R88, R90). -/
def Line.takeAssembling (l : Line) (f : Frame) (c : RxChar) : Line :=
  if f.terminated then l.endFrame f c
  else if c.data = 0x01 ∧ c.bad = false then l.beginFrame
  else
    let f := f.place c
    if 97 ≤ f.count ∧ f.terminated = false then l.sendReply (refusedReply 0x45)
    else { l with frame := some f, interTimer := some 0 }

/-- A gap mark spoils the frame in assembly, when the line is ASSEMBLING after the character (R82). -/
def Line.applyGap (l : Line) (gap : Bool) : Line :=
  if gap ∧ l.state = .assembling then { l with frame := l.frame.map fun f => { f with spoiled := true } } else l

/-- The assembly takes the head character of the FIFO while the line is IDLE or ASSEMBLING (R80, R86). -/
def Line.takeCharacter (l : Line) : Line :=
  match l.fifo with
  | [] => l
  | c :: rest =>
    let l := { l with fifo := rest }
    match l.state, l.frame with
    | .idle, _ => (l.takeIdle c).applyGap c.gap
    | .assembling, some f => (l.takeAssembling f c).applyGap c.gap
    | _, _ => l

/-! ## Reception (R80 to R84) -/

/-- The gap mark on the newest character (R82). -/
def markGap : List RxChar → List RxChar
  | [] => []
  | [c] => [{ c with gap := true }]
  | c :: rest => c :: markGap rest

/-- A completed character enters the FIFO, or is lost to an overrun (R81, R82). -/
def Line.receive (l : Line) (data : Byte) (bad : Bool) : Line :=
  if l.fifo.length < Config.lineFifo then { l with fifo := l.fifo ++ [{ data, bad, gap := false }] }
  else { l with fifo := markGap l.fifo }

/-- The line goes DOWN, or DISABLED with the disable-pending mark set (R83). -/
def Line.goDown (l : Line) : Line :=
  if l.disablePending then { l.disable with breakRun := 0 }
  else { l.clearExchange.stopPolling with state := .down, fifo := [], breakRun := 0 }

/-- The third break in a row: a waiting acceptance is withdrawn, the line goes DOWN and LINE DOWN is raised, unless the
line enters DISABLED (R83). A stalled sweep may resume when the last waiter leaves (R161). -/
def State.lineDown (s : State) (n : Fin 4) : State :=
  let l := s.line n
  let s := { s with pdu := { s.pdu with waiters := s.pdu.waiters.erase (.line n) } }
  let s := s.putLine n l.goDown
  (if l.disablePending then s else s.raise (.lineDown n)).resumeSweep

/-- A good character on a DOWN line: IDLE, the character first in the FIFO, the station moved on, LINE UP (R84). -/
def Line.recover (l : Line) (data : Byte) : Line :=
  Line.moveOn { l with state := .idle, fifo := [{ data, bad := false, gap := false }], breakRun := 0 }

/-- The bad condition of a completed character (R81). -/
def Line.badCharacter (l : Line) (data : Byte) (mark parity stop : Bool) : Bool :=
  let polled := l.mode == .polled
  !stop || parityError l.parity data (if polled then some mark else none) parity || (polled && mark)

/-- A character completes on a line (R80 to R84). -/
def State.intakeCharacter (s : State) (n : Fin 4) (data : Byte) (mark parity stop : Bool) : State :=
  let l := s.line n
  let bad := l.badCharacter data mark parity stop
  match l.state with
  | .disabled => s
  | .down => if bad then s else (s.putLine n (l.recover data)).raise (.lineUp n)
  | _ =>
    let run := if !stop && data == 0 then l.breakRun + 1 else 0
    let s := s.putLine n { l.receive data bad with breakRun := run }
    if 3 ≤ run then s.lineDown n else s

/-! ## Acceptance of a line's request (R91 to R95) -/

/-- The acceptance request of a line is taken (R91 to R95). -/
def State.acceptLine (s : State) (anew : Bool) (n : Fin 4) : State :=
  match (s.line n).request with
  | none => s
  | some sub =>
    match s.accept anew (.line n) (.line n) sub with
    | (s, .waits) => s
    | (s, .refused why _) => s.putLine n ((s.line n).sendReply (refusedReply (refusalLetter why)))
    | (s, .made slot _ _ _) => s.putLine n ((s.line n).sendReply (acceptedReply (s.reference slot)))

/-! ## TRAFFIC RESET at the lines (R104) -/

/-- A line in the event in which a TRAFFIC RESET is taken: a frame in assembly is discarded without a reply. -/
def Line.trafficReset (l : Line) : Line := if l.state = .assembling then l.endExchange.drive else l

/-! ## Commands (R98 to R101) -/

/-- The station list of a POLLED line is good: 1 to 8 stations, each 1 to 31, none twice (R98). -/
def stationsGood (stations : List Nat) : Bool :=
  decide (1 ≤ stations.length) && decide (stations.length ≤ 8) &&
    stations.all (fun n => decide (1 ≤ n) && decide (n ≤ 31)) && decide stations.Nodup

/-- The settings SET LINE gives a line, when every one is in range (R98). -/
def lineSettings (a : LineArgs) (l : Line) : Option Line :=
  match lineModeOf a.mode, parityOf a.parity with
  | some mode, some parity =>
    let stations := a.stations.map fun b => b.toNat
    if 4095 < a.n.toNat ∨ 1 < a.e.toNat ∨ a.stop.toNat < 1 ∨ 2 < a.stop.toNat ∨ a.wait.toNat < 2 ∨
        25 < a.wait.toNat ∨ (mode = .polled ∧ stationsGood stations = false) then none
    else
      let l := { l with mode, n := a.n.toNat, e := a.e.toNat, parity, stop := a.stop.toNat, current := 0 }
      some (if mode = .polled then { l with stations, wait := a.wait.toNat } else { l with stations := [] })
  | _, _ => none

/-- SET LINE (R98). -/
def takeSetLine (a : LineArgs) (s : State) : State × Reply :=
  match lineOf a.line with
  | none => (s, .now .badField [])
  | some n =>
    match lineSettings a (s.line n) with
    | none => (s, .now .badField [])
    | some l => if (s.line n).active then (s, .now .lineActive []) else (s.putLine n l, .now .ok [])

/-- A DISABLED line enabled: IDLE with its FIFO empty, and in POLLED mode the first station polled (R99). -/
def Line.enable (l : Line) : Line :=
  let l := { l with state := .idle, breakRun := 0, fifo := [], current := 0 }
  if l.mode = .polled then l.pollCurrent else l

/-- ENABLE LINE (R99, R102). -/
def takeEnableLine (line : Byte) (s : State) : State × Reply :=
  match lineOf line with
  | none => (s, .now .badField [])
  | some n =>
    if n = 3 ∧ s.linkBEnabled then (s, .now .pinsInUse [])
    else
      let l := s.line n
      let l' := if l.state = .disabled then l.enable else { l with disablePending := false }
      (s.putLine n l', .now .ok (nat1 l'.state.code))

/-- DISABLE LINE (R100). -/
def takeDisableLine (line : Byte) (s : State) : State × Reply :=
  match lineOf line with
  | none => (s, .now .badField [])
  | some n =>
    let l := s.line n
    match l.state with
    | .disabled => (s, .now .ok (nat1 0))
    | .idle | .down => (s.putLine n l.disable, .now .ok (nat1 0))
    | _ => (s.putLine n { l with disablePending := true }, .now .ok (nat1 1))

/-- LINE STATUS (R101). -/
def takeLineStatus (line : Byte) (s : State) : State × Reply :=
  match lineOf line with
  | none => (s, .now .badField [])
  | some n =>
    let l := s.line n
    (s, .now .ok (nat1 l.state.code ++ flag1 l.disablePending ++ nat1 l.fifo.length ++
      nat1 l.mode.code ++ nat2 l.n ++ nat1 l.e ++ nat1 l.parity.code ++ nat1 l.stop ++ nat1 l.wait ++
      nat1 l.stations.length ++ l.stations.flatMap nat1 ++
      optionalBytes 1 nat1 (if l.mode = .polled then some (l.stations.getD l.current 0) else none) ++
      if n = 3 then flag1 s.linkBEnabled else []))

/-- SET LINE started on the command link. -/
def startSetLine (tag : Byte) (a : LineArgs) (s : State) : State := s.start 0x40 tag fun _ => takeSetLine a

/-- ENABLE LINE started on the command link. -/
def startEnableLine (tag line : Byte) (s : State) : State := s.start 0x41 tag fun _ => takeEnableLine line

/-- DISABLE LINE started on the command link. -/
def startDisableLine (tag line : Byte) (s : State) : State := s.start 0x42 tag fun _ => takeDisableLine line

/-- LINE STATUS started on the command link. -/
def startLineStatus (tag line : Byte) (s : State) : State := s.start 0x43 tag fun _ => takeLineStatus line

/-! ## Meanings -/

/-- SET_LINE (R98). -/
def execSetLine (tag : Byte) (a : LineArgs) (s : State) : Answer := .next (startSetLine tag a s)

/-- ENABLE_LINE (R99). -/
def execEnableLine (tag line : Byte) (s : State) : Answer := .next (startEnableLine tag line s)

/-- DISABLE_LINE (R100). -/
def execDisableLine (tag line : Byte) (s : State) : Answer := .next (startDisableLine tag line s)

/-- LINE_STATUS (R101). -/
def execLineStatus (tag line : Byte) (s : State) : Answer := .next (startLineStatus tag line s)

/-- INTAKE_CHARACTER_RECEIVED (R80 to R84). -/
def execIntakeCharacterReceived (n : Fin 4) (data : Byte) (mark parity stop : Bool) (s : State) : Answer :=
  .next (s.intakeCharacter n data mark parity stop)

/-- CHARACTER_TAKEN (R80, R85, R86): while the line is IDLE or ASSEMBLING and its FIFO holds a character. -/
def execCharacterTaken (n : Fin 4) (s : State) : Answer :=
  .next (let l := s.line n
    if (l.state = .idle ∨ l.state = .assembling) ∧ l.fifo ≠ [] then s.putLine n l.takeCharacter else s)

/-- INTER_CHARACTER_TIMER_EXPIRY (R89): while ASSEMBLING, once the timer has counted 50 tick events. -/
def execInterCharacterTimerExpiry (n : Fin 4) (s : State) : Answer :=
  .next (let l := s.line n
    if l.state = .assembling ∧ l.interTimer.any (fun t => decide (Config.interCharacterTicks ≤ t)) then
      s.putLine n l.endExchange
    else s)

/-- POLL_SENT (R96): the oldest poll character has been sent; the station wait timer starts when it was the current
station's and the line is waiting on it. -/
def execPollSent (n : Fin 4) (s : State) : Answer :=
  .next (let l := s.line n
    match l.polls with
    | [] => s
    | _ :: rest =>
      s.putLine n { l with
        polls := rest
        stationTimer := if rest = [] ∧ l.state = .idle ∧ l.mode = .polled then some 0 else l.stationTimer })

/-- STATION_WAIT_EXPIRY (R97): while the line is IDLE, once the timer has counted the station reply wait. -/
def execStationWaitExpiry (n : Fin 4) (s : State) : Answer :=
  .next (let l := s.line n
    if l.state = .idle ∧ l.mode = .polled ∧ l.stationTimer.any (fun t => decide (l.wait ≤ t)) then s.putLine n l.moveOn
    else s)

/-- REPLY_COMPLETE (R95): the last reply character of a REPLYING line has been sent. -/
def execReplyComplete (n : Fin 4) (s : State) : Answer :=
  .next (if (s.line n).state = .replying then s.putLine n (s.line n).endExchange else s)

/-- ACCEPTANCE (R91 to R95): the request of a line that is AWAITING ACCEPTANCE and does not wait. -/
def execAcceptance (n : Fin 4) (s : State) : Answer :=
  .next (if (s.line n).state = .awaitingAcceptance ∧ s.lineWaits n = false then
      (s.acceptLine false n).afterTraffic
    else s)

end Sys2Proof.Machine
end

