-- ==== Sys2Proof/Machine/Messages.lean ====
section
/-! DEFINITION. The commands and events of the Message Store Unit (chapter 2): CANCEL, READ MESSAGE, TRAFFIC RESET and
its flush walk. -/

namespace Sys2Proof.Machine
open Sys2Proof

/-! ## Cancelling one slot (R22, R44) -/

/-- The disposition of a cancellation (R43). -/
inductive Disposition where
  | settled | pending | acknowledged
  deriving DecidableEq, Repr

/-- What R44 does with a slot in its present state: only a SENDING slot is not settled. -/
def Message.disposition (m : Message) : Disposition :=
  match m.place with
  | .sending => if m.ackPending then .acknowledged else .pending
  | _ => .settled

/-- Cancels a slot by its state (R44). -/
def State.cancelSlot (s : State) (n : Nat) (m : Message) : State :=
  match m.disposition with
  | .settled => s.settle .cancelled n
  | .pending => s.updateMessage n fun m => { m with cancelPending := true }
  | .acknowledged => s

/-- The response of a CANCEL that settled its slot: SETTLED, aired or not, the reserved charge, the owner (R43). -/
def Message.settledReply (m : Message) : List Byte := nat1 0 ++ flag1 m.aired ++ nat2 m.charge ++ nat2 m.owner

/-- CANCEL (R43 to R45). -/
def takeCancel (anew : Bool) (place : Nat) (reference : BitVec 16) (s : State) : State × Reply :=
  if s.ready = false then (s, .now .tableNotReady [])
  else
    match s.currentSlot reference.toNat with
    | none => (s, .now .staleReference [])
    | some n =>
      match s.message? n with
      | none => (s, .now .staleReference [])
      | some m =>
        match m.disposition with
        | .settled =>
          match s.touch anew m.owner with
          | none => (s.wait anew (.command place (.cancel reference)), .later)
          | some s =>
            match (s.cancelSlot n m).freeOwner anew m.owner (.answer place m.settledReply) with
            | (s, true) => (s, .later)
            | (s, false) => (s, .now .ok m.settledReply)
        | .pending => (s.cancelSlot n m, .now .ok (nat1 1))
        | .acknowledged => (s, .now .ok (nat1 2))

/-! ## READ MESSAGE (R47) -/

/-- The snapshot of a slot (R47, R189). The owner's record index is always sent; only its subscriber number is absent
when the owner is RETIRING (DESIGN CHOICE, notes/assumptions/41.md). -/
def State.messageBytes (s : State) (m : Message) : List Byte :=
  let owner := s.record? m.owner
  let number := owner.bind fun r => if r.state = .retiring then none else some r.number
  nat1 m.place.code ++ nat2 m.owner ++ optionalBytes 3 nat3 number ++ nat1 m.tag ++ nat1 m.source.code ++
  nat1 m.cls.code ++ nat1 m.kind.code ++ nat1 m.priority.code ++ nat1 m.body.length ++ m.body ++ nat2 m.charge ++
  flag1 m.allowanceUsed.isSome ++ optionalBytes 2 nat2 m.allowanceUsed ++ nat1 m.attempts ++ flag1 m.aired ++
  flag1 m.released ++ nat1 m.origin.code ++ optionalBytes 4 bytes4 m.deadline ++
  optionalBytes 4 bytes4 (m.deadline.map fun _ => s.pdu.tick) ++ flag1 m.ackPending ++ flag1 m.cancelPending

/-- READ MESSAGE (R47). -/
def takeReadMessage (reference : BitVec 16) (s : State) : State × Reply :=
  if s.ready = false then (s, .now .tableNotReady [])
  else
    match (s.currentSlot reference.toNat).bind s.message? with
    | none => (s, .now .staleReference [])
    | some m => (s, .now .ok (s.messageBytes m))

/-! ## TRAFFIC RESET (R48, R49) -/

/-- TRAFFIC RESET (R48, R52): marked in progress with its cursor at slot 0, and each line discards the frame it has in
assembly. Takes and moves stop, since R108 and R120 read the mark. -/
def takeTrafficReset (place : Nat) (s : State) : State × Reply :=
  if s.ready = false then (s, .now .tableNotReady [])
  else if s.resetting then (s, .now .resetBusy [])
  else
    ({ s with
        msu := { s.msu with flush := some { place, cursor := 0, flushed := 0, freed := 0 } }
        lines := s.lines.map Line.trafficReset }, .later)

/-- The flush cursor advances. -/
def State.advanceCursor (s : State) : State :=
  { s with msu := { s.msu with flush := s.msu.flush.map fun (f : TrafficReset) => { f with cursor := f.cursor + 1 } } }

/-- The flush walk takes the slot at its cursor (R49): passed over when FREE or SENDING, else settled FLUSHED; it waits
where the touch-sweep, or the closing entry of an owner so emptied, finds no room. -/
def State.flushSlot (s : State) (anew : Bool) (n : Nat) : State :=
  match s.message? n with
  | none => s.advanceCursor
  | some m =>
    match m.place with
    | .sending => s.advanceCursor
    | _ =>
      match s.touch anew m.owner with
      | none => s.wait anew .walk
      | some s =>
        match ((s.settle .flushed n).countFlushed).freeOwner anew m.owner .walk with
        | (s, true) => s
        | (s, false) => s.advanceCursor

/-- The walk's next visit, while it has not passed slot 2,047 (R49). -/
def State.flushStep (s : State) (anew : Bool) : State :=
  match s.msu.flush with
  | some f => if f.cursor < Config.slotCount then s.flushSlot anew f.cursor else s
  | none => s

/-- CANCEL started on the command link. -/
def startCancel (tag : Byte) (reference : BitVec 16) (s : State) : State :=
  s.startTraffic 0x20 tag fun place => takeCancel false place reference

/-- READ MESSAGE started on the command link. -/
def startReadMessage (tag : Byte) (reference : BitVec 16) (s : State) : State :=
  s.start 0x21 tag fun _ => takeReadMessage reference

/-- TRAFFIC RESET started on the command link. -/
def startTrafficReset (tag : Byte) (s : State) : State := s.start 0x22 tag takeTrafficReset

/-! ## Meanings -/

/-- CANCEL (R43 to R45). -/
def execCancel (tag : Byte) (reference : BitVec 16) (s : State) : Answer := .next (startCancel tag reference s)

/-- READ_MESSAGE (R47). -/
def execReadMessage (tag : Byte) (reference : BitVec 16) (s : State) : Answer := .next (startReadMessage tag reference s)

/-- TRAFFIC_RESET (R48). -/
def execTrafficReset (tag : Byte) (s : State) : Answer := .next (startTrafficReset tag s)

/-- FLUSH_WALK_STEP (R49): while a TRAFFIC RESET is in progress, its walk has not ended and does not wait. -/
def execFlushWalkStep (s : State) : Answer :=
  .next (if s.msu.flush.any (fun f => decide (f.cursor < Config.slotCount)) && !s.walkWaits then
      (s.flushStep false).afterTraffic
    else s)

end Sys2Proof.Machine
end

