-- ==== Sys2Proof/Machine/Table.lean ====
section
/-! DEFINITION. The commands of the Subscriber Table Unit (chapter 1) and ADJUST BALANCE (R69 to R71), which names a
record as they do. -/

namespace Sys2Proof.Machine
open Sys2Proof

/-! ## FORMAT (R11, R12) -/

/-- What keeps a FORMAT out (R11). -/
def State.trafficPresent (s : State) : Bool :=
  s.msu.slots.any (fun p => p.2.message.isSome) || s.sweepInProgress || s.resetting || !s.pdu.waiters.isEmpty

/-- FORMAT (R11): taken, the table is FORMATTING with the new capacity, and every record it held is discarded. -/
def takeFormat (code : Byte) (place : Nat) (s : State) : State × Reply :=
  match capacityOf code with
  | none => (s, .now .badField [])
  | some capacity =>
    if s.trafficPresent then (s, .now .trafficPresent [])
    else if s.stu.state = .formatting then (s, .now .tableNotReady [])
    else
      ({ s with stu :=
          { state := .formatting, capacity, free := .empty, freeCount := 0, records := [], numberIndex := [],
            addressIndex := [], formatPlace := some place } }, .later)

/-- The completion of the FORMAT in progress (R12, R33): READY, every record and slot FREE and on its free list in
number order, both indexes at end of chain, low water clear, and the response with the capacity. -/
def State.completeFormat (s : State) : State :=
  let t := s.stu.capacity
  let s' : State :=
    { s with
      stu :=
        { state := .ready, capacity := t, free := .full t, freeCount := t, records := [], numberIndex := [],
          addressIndex := [], formatPlace := none }
      msu := { s.msu with slots := [], free := .full Config.slotCount, freeCount := Config.slotCount, lowWater := false } }
  match s.stu.formatPlace with
  | some place => s'.complete place .ok (nat3 t)
  | none => s'

/-! ## ADD (R13, R14) -/

/-- A chain with room for one more record (R9). -/
def chainHasRoom (chain : List Nat) : Bool := decide (chain.length < Config.chainLimit)

/-- The new record of an ADD (R4). -/
def addedRecord (a : AddArgs) (cls : ServiceClass) (kind : PagerKind) (plan : Plan) (period : Nat) : Record :=
  { state := .active, number := a.number.toNat, address := a.address.toNat, cls, kind, zones := a.zones,
    presence := .unknown, plan, pending := 0, charge := 0, saturated := false, allowance := a.allowance.toNat,
    used := 0, delivered := 0, chars := 0, periodTag := period, live := [], held := [], nextTag := 0,
    closing := false }

/-- An ADD that passes its checks takes the head free record and inserts it at the head of both chains (R14). -/
def State.addRecord (s : State) (i : Nat) (free : FreeList) (r : Record) : State :=
  let s := { s with stu := { s.stu with free := free, freeCount := s.stu.freeCount - 1 } }
  ((s.putRecord i r).linkNumber r.number i).linkAddress r.address i

/-- ADD (R13, R14). -/
def takeAdd (a : AddArgs) (s : State) : State × Reply :=
  if s.ready = false then (s, .now .tableNotReady [])
  else
    match classOf a.cls, kindOf a.kind, planOf a.plan a.amount.toNat with
    | some cls, some kind, some plan =>
      if numberInRange a.number = false ∨ addressInRange a.address = false ∨ a.zones = 0 then (s, .now .badField [])
      else if (s.findNumber a.number.toNat).isSome then (s, .now .numberInUse [])
      else if (s.findAddress a.address.toNat).isSome then (s, .now .addressInUse [])
      else if chainHasRoom (chainAt s.stu.numberIndex (s.stu.numberBucket a.number.toNat)) = false ∨
          chainHasRoom (chainAt s.stu.addressIndex (s.stu.addressBucket a.address.toNat)) = false then
        (s, .now .chainFull [])
      else
        match s.stu.free.take with
        | none => (s, .now .tableFull [])
        | some (i, free) => (s.addRecord i free (addedRecord a cls kind plan s.pdu.period), .now .ok (nat2 i))
    | _, _, _ => (s, .now .badField [])

/-! ## ALTER (R15 to R17, R72 to R74) -/

/-- A change that is carried passes a test; one not carried is passed (R15). -/
def carried {α : Type} (test : α → Bool) (v : Option α) : Bool := v.all test

/-- Check 2 of R15 on the command alone: every field carried is in range, and no new ceiling beside a plan change. -/
def alterInRange (a : AlterArgs) : Bool :=
  numberInRange a.number && carried numberInRange a.newNumber && carried addressInRange a.newAddress &&
  carried (fun c => (classOf c).isSome) a.newClass && carried (fun k => (kindOf k).isSome) a.newKind &&
  carried (fun z => decide (z ≠ 0)) a.newZones && carried (fun p => (planOf p.1 p.2.toNat).isSome) a.newPlan &&
  !(a.newCeiling.isSome && a.newPlan.isSome)

/-- The record is PREPAID. -/
def Record.isPrepaid (r : Record) : Bool :=
  match r.plan with
  | .prepaid _ => true
  | .account _ => false

/-- The part of check 2 that reads the record: a new ceiling for a record that stays PREPAID is out of range. -/
def ceilingFits (a : AlterArgs) (r : Record) : Bool := !(a.newCeiling.isSome && a.newPlan.isNone && r.isPrepaid)

/-- The chain that a record moves into with a new number has room, counted as it stands once the record is unlinked
from the chain of its old one (R9). -/
def State.numberChainRoom (s : State) (i old new : Nat) : Bool :=
  chainHasRoom (chainAt (s.unlinkNumber old i).stu.numberIndex (s.stu.numberBucket new))

/-- The chain that a record moves into with a new address has room, counted as it stands once the record is unlinked
from the chain of its old one (R9). -/
def State.addressChainRoom (s : State) (i old new : Nat) : Bool :=
  chainHasRoom (chainAt (s.unlinkAddress old i).stu.addressIndex (s.stu.addressBucket new))

/-- Checks 4 to 9 of R15; none when all pass. -/
def State.alterRefusal (s : State) (a : AlterArgs) (i : Nat) (r : Record) : Option Result :=
  if !carried (fun v => decide (v.toNat = r.address) || r.live.isEmpty) a.newAddress then some .addressBusy
  else if !(carried (fun c => classOf c == some r.cls || r.live.isEmpty) a.newClass &&
      carried (fun k => kindOf k == some r.kind || r.live.isEmpty) a.newKind) then some .classBusy
  else if a.newPlan.isSome && r.pending != 0 then some .planBusy
  else if !carried (fun v => decide (v.toNat = r.number) || (s.findNumber v.toNat).isNone) a.newNumber then
    some .numberInUse
  else if !carried (fun v => decide (v.toNat = r.address) || (s.findAddress v.toNat).isNone) a.newAddress then
    some .addressInUse
  else if !(carried (fun v => decide (v.toNat = r.number) || s.numberChainRoom i r.number v.toNat) a.newNumber &&
      carried (fun v => decide (v.toNat = r.address) || s.addressChainRoom i r.address v.toNat) a.newAddress) then
    some .chainFull
  else none

/-- The new pager kind: presence becomes UNKNOWN when it differs (R16). -/
def Record.withKind (r : Record) (k : PagerKind) : Record :=
  if k = r.kind then r else { r with kind := k, presence := .unknown }

/-- A new ceiling is written as given on an ACCOUNT record (R72). -/
def Plan.withCeiling (p : Plan) (c : Nat) : Plan :=
  match p with
  | .account _ => .account c
  | .prepaid b => .prepaid b

/-- The field changes of an ALTER (R16, R72 to R74); a new allowance below pages used becomes pages used. -/
def Record.alter (r : Record) (a : AlterArgs) : Record :=
  let r := match a.newNumber with | some v => { r with number := v.toNat } | none => r
  let r := match a.newAddress with | some v => { r with address := v.toNat } | none => r
  let r := match a.newClass.bind classOf with | some c => { r with cls := c } | none => r
  let r := match a.newKind.bind kindOf with | some k => r.withKind k | none => r
  let r := match a.newZones with | some z => { r with zones := z } | none => r
  let r := match a.newCeiling with | some c => { r with plan := r.plan.withCeiling c.toNat } | none => r
  let r := match a.newAllowance with | some v => { r with allowance := max v.toNat r.used } | none => r
  match a.newPlan.bind fun p => planOf p.1 p.2.toNat with
  | some p => { r with plan := p }
  | none => r

/-- A record moves to the head of the chain of a new number; an equal number leaves it where it is (R16). -/
def State.moveNumber (s : State) (i old new : Nat) : State :=
  if old = new then s else (s.unlinkNumber old i).linkNumber new i

/-- A record moves to the head of the chain of a new address; an equal address leaves it where it is (R16). -/
def State.moveAddress (s : State) (i old new : Nat) : State :=
  if old = new then s else (s.unlinkAddress old i).linkAddress new i

/-- All the changes of an ALTER in one event (R16). -/
def State.alterRecord (s : State) (i : Nat) (r : Record) (a : AlterArgs) : State :=
  let r' := r.alter a
  ((s.moveNumber i r.number r'.number).moveAddress i r.address r'.address).putRecord i r'

/-- The response of an ALTER: the record index, and the allowance as written when a new one was carried (R16, R73). -/
def alterReply (i : Nat) (r : Record) (a : AlterArgs) : List Byte :=
  nat2 i ++ if a.newAllowance.isSome then nat2 r.allowance else []

/-- ALTER (R15 to R17). -/
def takeAlter (anew : Bool) (place : Nat) (a : AlterArgs) (s : State) : State × Reply :=
  if s.ready = false then (s, .now .tableNotReady [])
  else if alterInRange a = false then (s, .now .badField [])
  else
    match s.findNumber a.number.toNat with
    | none => (s, .now .unknownSubscriber [])
    | some i =>
      match s.record? i with
      | none => (s, .now .unknownSubscriber [])
      | some r =>
        if ceilingFits a r = false then (s, .now .badField [])
        else
          match s.alterRefusal a i r with
          | some why => (s, .now why [])
          | none =>
            match if a.newAllowance.isSome then s.touch anew i else some s with
            | none => (s.wait anew (.command place (.alter a)), .later)
            | some s =>
              match s.record? i with
              | none => (s, .now .unknownSubscriber [])
              | some r => (s.alterRecord i r a, .now .ok (alterReply i (r.alter a) a))

/-! ## SUSPEND and RESUME (R18) -/

/-- SUSPEND or RESUME: the record takes the state, and the response carries it. -/
def takeSetState (st : RecordState) (number : BitVec 24) (s : State) : State × Reply :=
  if s.ready = false then (s, .now .tableNotReady [])
  else
    match s.findNumber number.toNat with
    | none => (s, .now .unknownSubscriber [])
    | some i => (s.updateRecord i fun r => { r with state := st }, .now .ok (nat2 i ++ nat1 st.code))

/-! ## RETIRE (R20 to R23) -/

/-- The slots of a live list that a PURGE settles: those not SENDING (R22). -/
def State.purgeable (s : State) (r : Record) : List Nat :=
  r.live.filter fun n => (s.message? n).any fun m => m.disposition == .settled

/-- A RETIRE reaches the period counters when it settles a slot or finds the live list empty (R23). -/
def State.retireReaches (s : State) (purge : Bool) (r : Record) : Bool :=
  r.live.isEmpty || (purge && !(s.purgeable r).isEmpty)

/-- PURGE: each live slot in live-list order, by R44 (R22). -/
def State.purge (s : State) (live : List Nat) : State :=
  live.foldl (fun s n => match s.message? n with | some m => s.cancelSlot n m | none => s) s

/-- The record leaves its number chain and becomes RETIRING (R20). -/
def State.retireRecord (s : State) (i : Nat) (r : Record) : State :=
  (s.unlinkNumber r.number i).updateRecord i fun r => { r with state := .retiring }

/-- The response of a RETIRE: record index, slots settled, and whether the record was freed (R20), as a flag byte, 1 for
freed and 0 for RETIRING (DEDUCED, notes/assumptions/29.md). -/
def retireReply (i settled : Nat) (freed : Bool) : List Byte := nat2 i ++ nat1 settled ++ flag1 freed

/-- RETIRE (R20 to R24). -/
def takeRetire (anew : Bool) (place : Nat) (number : BitVec 24) (mode : Byte) (s : State) : State × Reply :=
  if s.ready = false then (s, .now .tableNotReady [])
  else
    match purgeOf mode with
    | none => (s, .now .badField [])
    | some purge =>
      match s.findNumber number.toNat with
      | none => (s, .now .unknownSubscriber [])
      | some i =>
        match s.record? i with
        | none => (s, .now .unknownSubscriber [])
        | some r =>
          let settled := if purge then (s.purgeable r).length else 0
          match if s.retireReaches purge r then s.touch anew i else some s with
          | none => (s.wait anew (.command place (.retire number mode)), .later)
          | some s =>
            let s := s.retireRecord i r
            let s := if purge then s.purge r.live else s
            if s.freeingDue i then
              match s.beginFreeing anew i (.answer place (retireReply i settled true)) with
              | (s, true) => (s, .later)
              | (s, false) => (s, .now .ok (retireReply i settled true))
            else (s, .now .ok (retireReply i settled false))

/-! ## FIND and READ RECORD (R25, R26) -/

/-- The state code of a record; FREE is 0. -/
def State.recordCode (s : State) (i : Nat) : Nat := (s.record? i).elim 0 fun r => r.state.code

/-- The response of a FIND (R25). -/
def State.findReply (s : State) : Option Nat → Reply
  | some i => .now .ok (nat2 i ++ nat1 (s.recordCode i))
  | none => .now .notFound []

/-- FIND NUMBER (R25). -/
def takeFindNumber (number : BitVec 24) (s : State) : State × Reply :=
  if s.ready = false then (s, .now .tableNotReady [])
  else if numberInRange number = false then (s, .now .badField [])
  else (s, s.findReply (s.findNumber number.toNat))

/-- FIND ADDRESS (R25). -/
def takeFindAddress (address : BitVec 24) (s : State) : State × Reply :=
  if s.ready = false then (s, .now .tableNotReady [])
  else if addressInRange address = false then (s, .now .badField [])
  else (s, s.findReply (s.findAddress address.toNat))

/-- READ RECORD (R26). -/
def takeReadRecord (index : BitVec 16) (s : State) : State × Reply :=
  if s.ready = false then (s, .now .tableNotReady [])
  else if s.stu.capacity ≤ index.toNat then (s, .now .badField [])
  else (s, .now .ok (s.snapshot index.toNat))

/-! ## ADJUST BALANCE (R69 to R71) -/

/-- The response of an ADJUST BALANCE: index, amount applied, new balance, pending (R70). -/
def adjustReply (i old new pending : Nat) : List Byte :=
  nat2 i ++ bytes4 (BitVec.ofInt 32 ((new : Int) - (old : Int))) ++ nat3 new ++ nat3 pending

/-- ADJUST BALANCE (R69 to R71). -/
def takeAdjustBalance (anew : Bool) (place : Nat) (number : BitVec 24) (amount : BitVec 32) (s : State) : State × Reply :=
  if s.ready = false then (s, .now .tableNotReady [])
  else if numberInRange number = false ∨ amount.toInt < -(Config.unitMax : Int) ∨ (Config.unitMax : Int) < amount.toInt then
    (s, .now .badField [])
  else
    match s.findNumber number.toNat with
    | none => (s, .now .unknownSubscriber [])
    | some i =>
      match s.record? i with
      | none => (s, .now .unknownSubscriber [])
      | some r =>
        match r.plan with
        | .account _ => (s, .now .wrongPlan [])
        | .prepaid balance =>
          match s.touch anew i with
          | none => (s.wait anew (.command place (.adjust number amount)), .later)
          | some s =>
            let new := adjustedBalance balance r.pending amount.toInt
            (s.updateRecord i fun r => { r with plan := .prepaid new }, .now .ok (adjustReply i balance new r.pending))

/-! ## Starts -/

/-- FORMAT started on the command link. -/
def startFormat (tag code : Byte) (s : State) : State := s.start 0x10 tag (takeFormat code)
/-- ADD started on the command link. -/
def startAdd (tag : Byte) (a : AddArgs) (s : State) : State := s.start 0x11 tag fun _ => takeAdd a
/-- ALTER started on the command link. -/
def startAlter (tag : Byte) (a : AlterArgs) (s : State) : State := s.start 0x12 tag fun place => takeAlter false place a
/-- SUSPEND started on the command link. -/
def startSuspend (tag : Byte) (number : BitVec 24) (s : State) : State :=
  s.start 0x13 tag fun _ => takeSetState .suspended number
/-- RESUME started on the command link. -/
def startResume (tag : Byte) (number : BitVec 24) (s : State) : State :=
  s.start 0x14 tag fun _ => takeSetState .active number
/-- RETIRE started on the command link. -/
def startRetire (tag : Byte) (number : BitVec 24) (mode : Byte) (s : State) : State :=
  s.startTraffic 0x15 tag fun place => takeRetire false place number mode
/-- FIND NUMBER started on the command link. -/
def startFindNumber (tag : Byte) (number : BitVec 24) (s : State) : State :=
  s.start 0x16 tag fun _ => takeFindNumber number
/-- FIND ADDRESS started on the command link. -/
def startFindAddress (tag : Byte) (address : BitVec 24) (s : State) : State :=
  s.start 0x17 tag fun _ => takeFindAddress address
/-- READ RECORD started on the command link. -/
def startReadRecord (tag : Byte) (index : BitVec 16) (s : State) : State :=
  s.start 0x18 tag fun _ => takeReadRecord index
/-- ADJUST BALANCE started on the command link. -/
def startAdjustBalance (tag : Byte) (number : BitVec 24) (amount : BitVec 32) (s : State) : State :=
  s.start 0x32 tag fun place => takeAdjustBalance false place number amount

/-! ## Meanings -/

/-- FORMAT (R11). -/
def execFormat (tag code : Byte) (s : State) : Answer := .next (startFormat tag code s)

/-- FORMAT_COMPLETION (R12): while the table is FORMATTING. -/
def execFormatCompletion (s : State) : Answer :=
  .next (if s.stu.state = .formatting then s.completeFormat else s)

/-- ADD (R13, R14). -/
def execAdd (tag : Byte) (a : AddArgs) (s : State) : Answer := .next (startAdd tag a s)

/-- ALTER (R15 to R17). -/
def execAlter (tag : Byte) (a : AlterArgs) (s : State) : Answer := .next (startAlter tag a s)

/-- SUSPEND (R18). -/
def execSuspend (tag : Byte) (number : BitVec 24) (s : State) : Answer := .next (startSuspend tag number s)

/-- RESUME (R18). -/
def execResume (tag : Byte) (number : BitVec 24) (s : State) : Answer := .next (startResume tag number s)

/-- RETIRE (R20 to R23). -/
def execRetire (tag : Byte) (number : BitVec 24) (mode : Byte) (s : State) : Answer :=
  .next (startRetire tag number mode s)

/-- FIND_NUMBER (R25). -/
def execFindNumber (tag : Byte) (number : BitVec 24) (s : State) : Answer := .next (startFindNumber tag number s)

/-- FIND_ADDRESS (R25). -/
def execFindAddress (tag : Byte) (address : BitVec 24) (s : State) : Answer := .next (startFindAddress tag address s)

/-- READ_RECORD (R26). -/
def execReadRecord (tag : Byte) (index : BitVec 16) (s : State) : Answer := .next (startReadRecord tag index s)

/-- ADJUST_BALANCE (R69 to R71). -/
def execAdjustBalance (tag : Byte) (number : BitVec 24) (amount : BitVec 32) (s : State) : Answer :=
  .next (startAdjustBalance tag number amount s)

end Sys2Proof.Machine
end

