-- ==== Sys2Proof/Machine/Period.lean ====
section
/-! DEFINITION. The Period Unit (chapter 7): the tick and the minute, the close, the sweep, the turns of the waiters
for extract space, and the unit's commands. -/

namespace Sys2Proof.Machine
open Sys2Proof

/-! ## The close (R159) -/

/-- A close starts: the period number advances, the sweep begins or is stalled at once, CLOSE STARTED (R159). -/
def State.startClose (s : State) (cause : Cause) : State :=
  let period := (s.pdu.period + 1) % Config.periodModulus
  let sweep : SweepState := if s.sweepBlocked then .stalled else .sweeping
  State.raise { s with pdu := { s.pdu with period := period, cursor := 0, entries := 0, sweep := sweep } }
    (.closeStarted period cause)

/-! ## Tick and minute (R154, R157) -/

/-- A line's timers count a tick event (R89, R97). -/
def Line.countTick (l : Line) : Line :=
  { l with interTimer := l.interTimer.map (· + 1), stationTimer := l.stationTimer.map (· + 1) }

/-- A link's timer counts a tick event (R131). -/
def Receiver.countTick (r : Receiver) : Receiver := { r with timer := r.timer.map (· + 1) }

/-- The tick counter rises by one, every running timer counts the event, and the next tick period has the length that
P and E give now (R154, R155). -/
def State.countTick (s : State) : State :=
  { s with
    lines := s.lines.map Line.countTick
    rla := s.rla.countTick
    rlb := s.rlb.countTick
    pdu := { s.pdu with tick := s.pdu.tick + 1, tickLength := (2 * s.pdu.p + 2 + s.pdu.e) * 256 } }

/-- The minute counter advances and is compared with the close-at minute (R154, R157). -/
def State.advanceMinute (s : State) : State :=
  let minute := (s.pdu.minute + 1) % Config.minuteModulus
  let s := { s with pdu := { s.pdu with tickMinute := 0, minute := minute } }
  if s.pdu.auto ∧ minute = s.pdu.closeAt then
    if s.sweepInProgress then s.raise (.closeMissed minute s.pdu.period) else s.startClose .auto
  else s

/-- The tick event that ends a minute (R154). -/
def State.minuteTick (s : State) : State := s.countTick.advanceMinute

/-- A tick event (R154). -/
def State.tickEvent (s : State) : State :=
  if Config.minuteTicks ≤ s.pdu.tickMinute + 1 then s.minuteTick
  else
    let s := s.countTick
    { s with pdu := { s.pdu with tickMinute := s.pdu.tickMinute + 1 } }

/-! ## The sweep (R161) -/

/-- The cursor rises by one. -/
def State.advanceSweep (s : State) : State := { s with pdu := { s.pdu with cursor := s.pdu.cursor + 1 } }

/-- The visit at the cursor (R161, R2). -/
def State.visit (s : State) : State :=
  if s.stu.capacity ≤ s.pdu.cursor then
    State.raise { s with pdu := { s.pdu with sweep := .idle } } (.periodClosed s.pdu.period s.pdu.entries)
  else if s.ready = false then s.advanceSweep
  else
    match s.record? s.pdu.cursor with
    | none => s.advanceSweep
    | some r => if r.periodTag = s.pdu.period then s.advanceSweep else (s.closeRecord s.pdu.cursor r).advanceSweep

/-- The test before a visit, and the visit (R161). -/
def State.sweepVisit (s : State) : State :=
  if s.sweepBlocked then { s with pdu := { s.pdu with sweep := .stalled } } else s.visit

/-! ## The waiters' turns (R164 to R166) -/

/-- The event that the closing entry's write ends (R166). -/
def State.endHolder (s : State) : Holder → State
  | .alone _ => s
  | .answer place params => s.complete place .ok params
  | .report l => s.popReport l
  | .expiry => s
  | .walk => s.advanceCursor

/-- A waiting command answers, or stays in progress (R176). -/
def State.settleReply (place : Nat) : State × Reply → State
  | (s, .now result params) => s.complete place result params
  | (s, .later) => s

/-- A waiting command is taken anew (R165). -/
def State.retake (s : State) (place : Nat) : HeldCommand → State × Reply
  | .submit a => takeSubmit true place a s
  | .alter a => takeAlter true place a s
  | .retire number mode => takeRetire true place number mode s
  | .cancel reference => takeCancel true place reference s
  | .adjust number amount => takeAdjustBalance true place number amount s

/-- The operation of a waiter, off the list, is taken anew whole on the state as it stands (R164). -/
def State.takeAnew (s : State) : Waiter → State
  | .line n => s.acceptLine true n
  | .command place c => State.settleReply place (s.retake place c)
  | .arbiter => if s.takeAllowed then s.take true else s
  | .completion => s.completeFrame true
  | .report l => s.takeReport true l
  | .expiry => s.expire true
  | .walk => s.flushStep true
  | .closing i holder =>
    match s.writeClosing true i holder with
    | some s => s.endHolder holder
    | none => s.wait true (.closing i holder)

/-- The head of the list has its turn, while the FIFO is not full (R164). -/
def State.waiterTurn (s : State) : State :=
  match s.pdu.waiters with
  | [] => s
  | w :: rest =>
    if s.pdu.extract.length < Config.extractFifo then
      (State.takeAnew { s with pdu := { s.pdu with waiters := rest } } w).afterTraffic
    else s

/-! ## Commands (R155 to R158, R167, R168) -/

/-- SET TIMEBASE (R155). -/
def takeSetTimebase (p : BitVec 16) (e : Byte) (s : State) : State × Reply :=
  if p = 0 ∨ 1 < e.toNat then (s, .now .badField [])
  else ({ s with pdu := { s.pdu with p := p.toNat, e := e.toNat } }, .now .ok (bytes2 p ++ [e]))

/-- SET CLOCK (R156); its three-byte field holds no value above 16,777,215. -/
def takeSetClock (minute : BitVec 24) (s : State) : State × Reply :=
  ({ s with pdu := { s.pdu with minute := minute.toNat, tickMinute := 0 } }, .now .ok (bytes3 minute))

/-- SET CLOSE (R157); its three-byte field holds no minute above 16,777,215. -/
def takeSetClose (minute : BitVec 24) (auto : Byte) (s : State) : State × Reply :=
  match switchOf auto with
  | none => (s, .now .badField [])
  | some on =>
    ({ s with pdu := { s.pdu with closeAt := minute.toNat, auto := on } }, .now .ok (bytes3 minute ++ flag1 on))

/-- CLOSE PERIOD (R158). -/
def takeClosePeriod (s : State) : State × Reply :=
  if s.sweepInProgress then (s, .now .sweepBusy [])
  else
    let s := s.startClose .command
    (s, .now .ok (nat2 s.pdu.period))

/-- READ EXTRACT (R167). -/
def takeReadExtract (count : Byte) (s : State) : State × Reply :=
  if count = 0 ∨ 8 < count.toNat then (s, .now .badField [])
  else
    let taken := s.pdu.extract.take count.toNat
    let left := s.pdu.extract.drop count.toNat
    (State.resumeSweep { s with pdu := { s.pdu with extract := left } },
      .now .ok (nat1 taken.length ++ taken.flatMap Entry.bytes ++ nat1 left.length))

/-- PERIOD STATUS (R168). -/
def takePeriodStatus (s : State) : State × Reply :=
  let p := s.pdu
  (s, .now .ok (nat2 p.p ++ nat1 p.e ++ bytes4 p.tick ++ nat2 p.tickMinute ++ nat3 p.minute ++ nat3 p.closeAt ++
    flag1 p.auto ++ nat2 p.period ++ nat1 p.sweep.code ++ nat3 p.cursor ++ nat3 p.entries ++ nat1 p.extract.length ++
    nat3 p.waiters.length ++ nat1 (p.waiters.head?.elim 0 Waiter.code)))

/-- SET TIMEBASE started on the command link. -/
def startSetTimebase (tag : Byte) (p : BitVec 16) (e : Byte) (s : State) : State :=
  s.start 0x70 tag fun _ => takeSetTimebase p e
/-- SET CLOCK started on the command link. -/
def startSetClock (tag : Byte) (minute : BitVec 24) (s : State) : State := s.start 0x71 tag fun _ => takeSetClock minute
/-- SET CLOSE started on the command link. -/
def startSetClose (tag : Byte) (minute : BitVec 24) (auto : Byte) (s : State) : State :=
  s.start 0x72 tag fun _ => takeSetClose minute auto
/-- CLOSE PERIOD started on the command link. -/
def startClosePeriod (tag : Byte) (s : State) : State := s.start 0x73 tag fun _ => takeClosePeriod
/-- READ EXTRACT started on the command link. -/
def startReadExtract (tag count : Byte) (s : State) : State := s.start 0x74 tag fun _ => takeReadExtract count
/-- PERIOD STATUS started on the command link. -/
def startPeriodStatus (tag : Byte) (s : State) : State := s.start 0x75 tag fun _ => takePeriodStatus

/-! ## Meanings -/

/-- SET_TIMEBASE (R155). -/
def execSetTimebase (tag : Byte) (p : BitVec 16) (e : Byte) (s : State) : Answer := .next (startSetTimebase tag p e s)

/-- SET_CLOCK (R156). -/
def execSetClock (tag : Byte) (minute : BitVec 24) (s : State) : Answer := .next (startSetClock tag minute s)

/-- SET_CLOSE (R157). -/
def execSetClose (tag : Byte) (minute : BitVec 24) (auto : Byte) (s : State) : Answer :=
  .next (startSetClose tag minute auto s)

/-- CLOSE_PERIOD (R158). -/
def execClosePeriod (tag : Byte) (s : State) : Answer := .next (startClosePeriod tag s)

/-- READ_EXTRACT (R167). -/
def execReadExtract (tag count : Byte) (s : State) : Answer := .next (startReadExtract tag count s)

/-- PERIOD_STATUS (R168). -/
def execPeriodStatus (tag : Byte) (s : State) : Answer := .next (startPeriodStatus tag s)

/-- TICK (R154). -/
def execTick (s : State) : Answer := .next s.tickEvent

/-- MINUTE_ADVANCE (R154, R157): the tick event in which the tick-within-minute count wraps. -/
def execMinuteAdvance (s : State) : Answer :=
  .next (if Config.minuteTicks ≤ s.pdu.tickMinute + 1 then s.minuteTick else s)

/-- SWEEP_VISIT (R161): while the sweep state is SWEEPING. -/
def execSweepVisit (s : State) : Answer := .next (if s.pdu.sweep = .sweeping then s.sweepVisit else s)

/-- EXTRACT_WAITER_TURN (R164 to R166). -/
def execExtractWaiterTurn (s : State) : Answer := .next s.waiterTurn

end Sys2Proof.Machine
end

