-- ==== Sys2Proof/Machine/CommandLink.lean ====
section
/-! DEFINITION. The Command Link Unit (chapter 8): the exchange, the command queue, the start of commands, STATUS and
READ NOTICES; and the hardware reset. -/

namespace Sys2Proof.Machine
open Sys2Proof

/-! ## STATUS and READ NOTICES (R181, R182) -/

/-- STATUS (R182); its own response is counted among the responses. -/
def takeStatus (s : State) : State × Reply :=
  (s, .now .ok (nat1 s.stu.state.code ++ nat3 s.stu.capacity ++ nat3 s.stu.freeCount ++ nat2 s.msu.freeCount ++
    flag1 s.msu.lowWater ++ flag1 s.resetting ++ optionalBytes 2 (fun (f : TrafficReset) => nat2 f.cursor) s.msu.flush ++
    nat2 s.pdu.period ++ nat1 s.pdu.sweep.code ++ nat3 s.pdu.waiters.length ++ nat1 s.clu.queue.length ++
    nat1 s.clu.inProgress.length ++ s.clu.inProgress.flatMap (fun g => [g.code, g.tag]) ++
    nat1 (s.clu.responses.length + 1) ++ nat1 s.clu.notices.length ++ flag1 s.clu.overflow))

/-- READ NOTICES (R181). -/
def takeReadNotices (count : Byte) (s : State) : State × Reply :=
  if count = 0 ∨ 8 < count.toNat then (s, .now .badField [])
  else
    let taken := s.clu.notices.take count.toNat
    let left := s.clu.notices.drop count.toNat
    ({ s with clu := Clu.driveAttn { s.clu with notices := left, overflow := false } },
      .now .ok (nat1 taken.length ++ taken.flatMap Notice.bytes ++ nat1 left.length ++ flag1 s.clu.overflow))

/-- STATUS started on the command link. -/
def startStatus (tag : Byte) (s : State) : State := s.start 0x80 tag fun _ => takeStatus
/-- READ NOTICES started on the command link. -/
def startReadNotices (tag count : Byte) (s : State) : State := s.start 0x81 tag fun _ => takeReadNotices count

/-! ## Starting the head of the command queue (R175) -/

/-- A host command is taken by the block that owns the state it concerns, in the event of its start (R175); an event
of the part is no command of 8.7 and is never parsed from a frame. -/
def startHost (i : Instr) (s : State) : State :=
  match i with
  | .format t code => startFormat t code s
  | .add t a => startAdd t a s
  | .alter t a => startAlter t a s
  | .suspend t number => startSuspend t number s
  | .resume t number => startResume t number s
  | .retire t number mode => startRetire t number mode s
  | .findNumber t number => startFindNumber t number s
  | .findAddress t address => startFindAddress t address s
  | .readRecord t index => startReadRecord t index s
  | .cancel t reference => startCancel t reference s
  | .readMessage t reference => startReadMessage t reference s
  | .trafficReset t => startTrafficReset t s
  | .setTariff t a => startSetTariff t a s
  | .readTariff t => startReadTariff t s
  | .adjustBalance t number amount => startAdjustBalance t number amount s
  | .setLine t a => startSetLine t a s
  | .enableLine t line => startEnableLine t line s
  | .disableLine t line => startDisableLine t line s
  | .lineStatus t line => startLineStatus t line s
  | .submit t a => startSubmit t a s
  | .setZones t zones => startSetZones t zones s
  | .setOverride t zones value => startSetOverride t zones value s
  | .zoneStatus t => startZoneStatus t s
  | .setTransmitter t d => startSetTransmitter t d s
  | .holdDispatch t value => startHoldDispatch t value s
  | .setArbiter t mode => startSetArbiter t mode s
  | .dispatchStatus t => startDispatchStatus t s
  | .setReturnLink t a => startSetReturnLink t a s
  | .enableReturnLink t link => startEnableReturnLink t link s
  | .disableReturnLink t link => startDisableReturnLink t link s
  | .setRetry t w0 aMax hold => startSetRetry t w0 aMax hold s
  | .returnStatus t => startReturnStatus t s
  | .setTimebase t p e => startSetTimebase t p e s
  | .setClock t minute => startSetClock t minute s
  | .setClose t minute auto => startSetClose t minute auto s
  | .closePeriod t => startClosePeriod t s
  | .readExtract t count => startReadExtract t count s
  | .periodStatus t => startPeriodStatus t s
  | .status t => startStatus t s
  | .readNotices t count => startReadNotices t count s
  | .hardwareReset | .exchangeBegin | .statusByteReadOut | .exchangeEnd _ | .commandStart | .formatCompletion
  | .flushWalkStep | .intakeCharacterReceived .. | .characterTaken _ | .interCharacterTimerExpiry _ | .pollSent _
  | .stationWaitExpiry _ | .replyComplete _ | .acceptance _ | .arbiterTake | .moveToSending | .frameCompletion
  | .readyChange _ | .rejectRise _ | .eholdChange _ | .zoneStatusChange .. | .returnCharacterReceived ..
  | .reportTimeout _ | .reportTaken _ | .expiry | .tick | .minuteAdvance | .sweepVisit | .extractWaiterTurn => s

/-- A frame is started: the two checks of R175, and then the owning block. -/
def State.startFrame (s : State) (f : CommandFrame) : State :=
  match parseCommand f.code f.tag f.params with
  | .unknownCommand => s.respond { code := f.code, tag := f.tag, result := .unknownCommand, params := [] }
  | .lengthError => s.respond { code := f.code, tag := f.tag, result := .lengthError, params := [] }
  | .command i =>
    if f.short then s.respond { code := f.code, tag := f.tag, result := .lengthError, params := [] }
    else startHost i s

/-- The command at the head of the queue is started when the response FIFO is not full (R175). -/
def State.startHead (s : State) : State :=
  match s.clu.queue with
  | f :: rest =>
    if s.responseFull then s else State.startFrame { s with clu := { s.clu with queue := rest } } f
  | [] => s

/-- Commands start one after another while the queue holds one and the response FIFO is not full (R175). -/
def startQueued : Nat → State → State
  | 0, s => s
  | k + 1, s => if s.clu.queue.isEmpty || s.responseFull then s else startQueued k s.startHead

/-- Every command that R175 allows to start is started; each start removes a frame from the queue. -/
def State.startWaiting (s : State) : State := startQueued s.clu.queue.length s

/-! ## The exchange (R171 to R174, R178) -/

/-- CSn falls: the snapshot of the status byte and the response frame to be shifted (R171). -/
def State.beginExchange (s : State) : State :=
  { s with clu := { s.clu with
      exchange := some { statusByte := s.statusByte, response := s.clu.responses.head?, readOut := false } } }

/-- What the part shifts on MISO in an exchange, before the zero bytes that follow: the status byte, then the response
frame, or a frame of length zero (R171, R189). -/
def Exchange.miso (x : Exchange) : List Byte :=
  x.statusByte :: match x.response with
    | some r => r.bytes
    | none => [0, 0]

/-- The first `n` bytes that the part shifts on MISO in an exchange: zero bytes follow the frame for as long as the
host goes on clocking (R171). -/
def Exchange.shifted (x : Exchange) (n : Nat) : List Byte :=
  x.miso.take n ++ List.replicate (n - x.miso.length) 0

/-- MISO over the first `n` bytes of an exchange: each byte most significant bit first; none while no exchange is in
progress, when the part leaves MISO undriven (R171). -/
def State.misoBits (s : State) (n : Nat) : Option (List Bool) :=
  s.clu.exchange.map fun x => (x.shifted n).flatMap fun b => msbFirst 8 b.toNat

/-- The whole bytes that the bits sampled on MOSI make, most significant bit first (R171); a byte cut off within its bits
is none (notes/assumptions/16.md). EXCHANGE_END carries these bytes. -/
def mosiBytes : List Bool → List Byte
  | b7 :: b6 :: b5 :: b4 :: b3 :: b2 :: b1 :: b0 :: rest =>
    BitVec.ofNat 8 ([b7, b6, b5, b4, b3, b2, b1, b0].foldl (fun acc b => 2 * acc + b.toNat) 0) :: mosiBytes rest
  | _ => []

/-- The eighth bit of the status byte has been shifted: both indications are cleared (R172). -/
def State.readOutStatus (s : State) : State :=
  match s.clu.exchange with
  | some x =>
    if x.readOut then s
    else { s with clu := { s.clu with exchange := some { x with readOut := true }, dropped := false, resetSeen := false } }
  | none => s

/-- A frame is offered to the command queue: it joins the tail, or is discarded and the command dropped indication is
set (R174); one that joins may be started in the event (R175). -/
def State.offerFrame (s : State) (f : CommandFrame) : State :=
  if s.clu.queue.length < Config.commandQueue then
    State.startWaiting { s with clu := { s.clu with queue := s.clu.queue ++ [f] } }
  else { s with clu := { s.clu with dropped := true } }

/-- The command dropped indication is set (R173, R174). -/
def State.dropFrame (s : State) : State := { s with clu := { s.clu with dropped := true } }

/-- What the CLU makes of the bytes received on MOSI in an exchange (R173). -/
def State.receiveFrame (s : State) : List Byte → State
  | [] => s.dropFrame
  | length :: rest =>
    if length = 0 then s
    else if length = 1 then s.dropFrame
    else
      match rest with
      | code :: tag :: params =>
        let count := length.toNat - 2
        s.offerFrame { code, tag, params := params.take count, short := decide (params.length < count) }
      | _ => s.dropFrame

/-- The response shifted out whole leaves the head of the FIFO, and the command queue's head may start (R178). -/
def State.removeResponse (s : State) : State :=
  State.startWaiting { s with clu := Clu.driveAttn { s.clu with responses := s.clu.responses.tail } }

/-- CSn rises: the response frame is removed when every part of it was shifted out, and then the received frame is
examined (R173, R178). -/
def State.endExchange (s : State) (x : Exchange) (mosi : List Byte) : State :=
  let s := { s with clu := { s.clu with exchange := none } }
  let s := if x.response.isSome ∧ x.miso.length ≤ mosi.length then s.removeResponse else s
  s.receiveFrame mosi

/-! ## Meanings -/

/-- STATUS (R182). -/
def execStatus (tag : Byte) (s : State) : Answer := .next (startStatus tag s)

/-- READ_NOTICES (R181). -/
def execReadNotices (tag count : Byte) (s : State) : Answer := .next (startReadNotices tag count s)

/-- HARDWARE_RESET (R1, R3, R33, R53, R76, R106, R129, R149, R153, R170): every block in its hardware-reset state. The
levels of the input pins and the commands that wait to be taken are not the part's to reset. -/
def execHardwareReset (s : State) : Answer := .next (State.afterReset s.pins s.pending)

/-- EXCHANGE_BEGIN (R171): CSn falls, from high. -/
def execExchangeBegin (s : State) : Answer := .next (if s.clu.exchange.isNone then s.beginExchange else s)

/-- STATUS_BYTE_READ_OUT (R172): once in an exchange. -/
def execStatusByteReadOut (s : State) : Answer := .next s.readOutStatus

/-- EXCHANGE_END (R173, R178): CSn rises. -/
def execExchangeEnd (mosi : List Byte) (s : State) : Answer :=
  .next (match s.clu.exchange with
    | some x => s.endExchange x mosi
    | none => s)

/-- COMMAND_START (R175). -/
def execCommandStart (s : State) : Answer := .next s.startHead

end Sys2Proof.Machine
end

