-- ==== Sys2Proof/Machine/Dispatch.lean ====
section
/-! DEFINITION. The dispatch of a command to its meaning: one arm per row of spec/opcode_table.json. -/

namespace Sys2Proof.Machine
open Sys2Proof

def exec (i : Instr) (s : State) : Host.Outcome State Fault Refusal :=
  match i with
  | .hardwareReset => Sys2Proof.Machine.execHardwareReset s
  | .exchangeBegin => Sys2Proof.Machine.execExchangeBegin s
  | .statusByteReadOut => Sys2Proof.Machine.execStatusByteReadOut s
  | .exchangeEnd mosi => Sys2Proof.Machine.execExchangeEnd mosi s
  | .commandStart => Sys2Proof.Machine.execCommandStart s
  | .format tag code => Sys2Proof.Machine.execFormat tag code s
  | .formatCompletion => Sys2Proof.Machine.execFormatCompletion s
  | .add tag args => Sys2Proof.Machine.execAdd tag args s
  | .alter tag args => Sys2Proof.Machine.execAlter tag args s
  | .suspend tag number => Sys2Proof.Machine.execSuspend tag number s
  | .resume tag number => Sys2Proof.Machine.execResume tag number s
  | .retire tag number mode => Sys2Proof.Machine.execRetire tag number mode s
  | .findNumber tag number => Sys2Proof.Machine.execFindNumber tag number s
  | .findAddress tag address => Sys2Proof.Machine.execFindAddress tag address s
  | .readRecord tag index => Sys2Proof.Machine.execReadRecord tag index s
  | .cancel tag reference => Sys2Proof.Machine.execCancel tag reference s
  | .readMessage tag reference => Sys2Proof.Machine.execReadMessage tag reference s
  | .trafficReset tag => Sys2Proof.Machine.execTrafficReset tag s
  | .flushWalkStep => Sys2Proof.Machine.execFlushWalkStep s
  | .setTariff tag args => Sys2Proof.Machine.execSetTariff tag args s
  | .readTariff tag => Sys2Proof.Machine.execReadTariff tag s
  | .adjustBalance tag number amount => Sys2Proof.Machine.execAdjustBalance tag number amount s
  | .setLine tag args => Sys2Proof.Machine.execSetLine tag args s
  | .enableLine tag line => Sys2Proof.Machine.execEnableLine tag line s
  | .disableLine tag line => Sys2Proof.Machine.execDisableLine tag line s
  | .lineStatus tag line => Sys2Proof.Machine.execLineStatus tag line s
  | .submit tag args => Sys2Proof.Machine.execSubmit tag args s
  | .setZones tag zones => Sys2Proof.Machine.execSetZones tag zones s
  | .setOverride tag zones value => Sys2Proof.Machine.execSetOverride tag zones value s
  | .zoneStatus tag => Sys2Proof.Machine.execZoneStatus tag s
  | .setTransmitter tag divider => Sys2Proof.Machine.execSetTransmitter tag divider s
  | .holdDispatch tag value => Sys2Proof.Machine.execHoldDispatch tag value s
  | .setArbiter tag mode => Sys2Proof.Machine.execSetArbiter tag mode s
  | .dispatchStatus tag => Sys2Proof.Machine.execDispatchStatus tag s
  | .setReturnLink tag args => Sys2Proof.Machine.execSetReturnLink tag args s
  | .enableReturnLink tag link => Sys2Proof.Machine.execEnableReturnLink tag link s
  | .disableReturnLink tag link => Sys2Proof.Machine.execDisableReturnLink tag link s
  | .setRetry tag w0 aMax hold => Sys2Proof.Machine.execSetRetry tag w0 aMax hold s
  | .returnStatus tag => Sys2Proof.Machine.execReturnStatus tag s
  | .setTimebase tag p e => Sys2Proof.Machine.execSetTimebase tag p e s
  | .setClock tag minute => Sys2Proof.Machine.execSetClock tag minute s
  | .setClose tag minute auto => Sys2Proof.Machine.execSetClose tag minute auto s
  | .closePeriod tag => Sys2Proof.Machine.execClosePeriod tag s
  | .readExtract tag count => Sys2Proof.Machine.execReadExtract tag count s
  | .periodStatus tag => Sys2Proof.Machine.execPeriodStatus tag s
  | .status tag => Sys2Proof.Machine.execStatus tag s
  | .readNotices tag count => Sys2Proof.Machine.execReadNotices tag count s
  | .intakeCharacterReceived line data mark parity stop => Sys2Proof.Machine.execIntakeCharacterReceived line data mark parity stop s
  | .characterTaken line => Sys2Proof.Machine.execCharacterTaken line s
  | .interCharacterTimerExpiry line => Sys2Proof.Machine.execInterCharacterTimerExpiry line s
  | .pollSent line => Sys2Proof.Machine.execPollSent line s
  | .stationWaitExpiry line => Sys2Proof.Machine.execStationWaitExpiry line s
  | .replyComplete line => Sys2Proof.Machine.execReplyComplete line s
  | .acceptance line => Sys2Proof.Machine.execAcceptance line s
  | .arbiterTake => Sys2Proof.Machine.execArbiterTake s
  | .moveToSending => Sys2Proof.Machine.execMoveToSending s
  | .frameCompletion => Sys2Proof.Machine.execFrameCompletion s
  | .readyChange level => Sys2Proof.Machine.execReadyChange level s
  | .rejectRise level => Sys2Proof.Machine.execRejectRise level s
  | .eholdChange level => Sys2Proof.Machine.execEholdChange level s
  | .zoneStatusChange zone level => Sys2Proof.Machine.execZoneStatusChange zone level s
  | .returnCharacterReceived link data parity stop => Sys2Proof.Machine.execReturnCharacterReceived link data parity stop s
  | .reportTimeout link => Sys2Proof.Machine.execReportTimeout link s
  | .reportTaken link => Sys2Proof.Machine.execReportTaken link s
  | .expiry => Sys2Proof.Machine.execExpiry s
  | .tick => Sys2Proof.Machine.execTick s
  | .minuteAdvance => Sys2Proof.Machine.execMinuteAdvance s
  | .sweepVisit => Sys2Proof.Machine.execSweepVisit s
  | .extractWaiterTurn => Sys2Proof.Machine.execExtractWaiterTurn s

end Sys2Proof.Machine
end

