-- ==== Sys2Proof/Safety.lean ====
section
/-! DEFINITION. What a state must satisfy to be one the part can be in, as properties that every step keeps: the
canonical form of the tables, the capacities of the FIFOs, the ranges of the settings and of the records, the levels of
the output pins, what each line holds, the place of every record and of every slot, and that no take, move, start or completion that a rule
makes in the event allowing it is left undone. Each is a `Bool`, so that it can be evaluated on a written-out state; the
last definition, the order in which a slot joins the timed list, is a `Prop` for statements to name. -/

namespace Sys2Proof.Machine
open Sys2Proof

/-! ## Canonical form -/

/-- The tables of the external memory in their one canonical form: keys rising, no slot listed that is FREE with reuse
count 0, no empty chain listed. -/
def State.canonical (s : State) : Bool :=
  s.stu.records.rising && s.msu.slots.rising && s.msu.slots.all (fun p => p.2 != { reuse := 0, message := none }) &&
  s.stu.numberIndex.rising && s.stu.numberIndex.all (fun p => p.2 != []) &&
  s.stu.addressIndex.rising && s.stu.addressIndex.all (fun p => p.2 != [])

/-! ## Capacities -/

/-- A line's receive FIFO holds at most 16 characters, and its break run rests below 3 (R80, R83). -/
def Line.bounded (l : Line) : Bool := decide (l.fifo.length ≤ Config.lineFifo) && decide (l.breakRun < 3)

/-- A return link's FIFO holds at most 16 reports, its report in assembly at most 6 characters, and its counts stop at
65,535 (R129). -/
def Receiver.bounded (r : Receiver) : Bool :=
  decide (r.fifo.length ≤ Config.reportFifo) && decide (r.chars.length ≤ 6) &&
  decide (r.dropped ≤ Config.countMax) && decide (r.rejected ≤ Config.countMax)

/-- Every FIFO within its capacity: extract (R163), notices (R180), command queue (R174), responses with the places
held (R175), lines and links. -/
def State.bounded (s : State) : Bool :=
  decide (s.pdu.extract.length ≤ Config.extractFifo) && decide (s.clu.notices.length ≤ Config.noticeQueue) &&
  decide (s.clu.queue.length ≤ Config.commandQueue) &&
  decide (s.clu.responses.length + s.clu.inProgress.length ≤ Config.responseFifo) &&
  s.lines.l0.bounded && s.lines.l1.bounded && s.lines.l2.bounded && s.lines.l3.bounded &&
  s.rla.bounded && s.rlb.bounded

/-- No chain of an index holds more than 12 records (R9). -/
def State.chainsBounded (s : State) : Bool :=
  s.stu.numberIndex.all (fun p => decide (p.2.length ≤ Config.chainLimit)) &&
  s.stu.addressIndex.all (fun p => decide (p.2.length ≤ Config.chainLimit))

/-- Each waiter that R165 marks "once" has at most one place in the list; a closing entry that holds a link, the expiry
or the flush walk stands for it (R166). -/
def State.waitersOnce (s : State) : Bool :=
  (List.finRange 4).all (fun n => decide (s.pdu.waiters.countP (fun w => w == .line n) ≤ 1)) &&
  decide (s.pdu.waiters.countP (fun w => w == .arbiter) ≤ 1) &&
  decide (s.pdu.waiters.countP (fun w => w == .completion) ≤ 1) &&
  [Link.a, Link.b].all (fun l => decide (s.pdu.waiters.countP (fun
    | .report l' => l' == l
    | .closing _ (.report l') => l' == l
    | _ => false) ≤ 1)) &&
  decide (s.pdu.waiters.countP (fun | .expiry => true | .closing _ .expiry => true | _ => false) ≤ 1) &&
  decide (s.pdu.waiters.countP (fun | .walk => true | .closing _ .walk => true | _ => false) ≤ 1)

/-! ## Output pins -/

/-- RDY as R80 drives it. -/
def Line.rdyDriven (l : Line) : Bool :=
  l.rdy == (l.state != .disabled && decide (l.fifo.length < Config.rdyLimit))

/-- ATTN as R179 drives it, and RDY of every line as R80 drives it. -/
def State.pinsDriven (s : State) : Bool :=
  s.clu.attn == (!s.clu.responses.isEmpty || !s.clu.notices.isEmpty) &&
  s.lines.l0.rdyDriven && s.lines.l1.rdyDriven && s.lines.l2.rdyDriven && s.lines.l3.rdyDriven

/-! ## The exchange in hand on a line -/

/-- A line has a frame exactly while it is ASSEMBLING, an acceptance request exactly while it is AWAITING ACCEPTANCE,
and a reply exactly while it is REPLYING (R77). -/
def Line.exchangeGood (l : Line) : Bool :=
  l.frame.isSome == (l.state == .assembling) && l.request.isSome == (l.state == .awaitingAcceptance) &&
  !l.reply.isEmpty == (l.state == .replying)

/-- Every line holds what its state names, and is in the list of waiters only while it is AWAITING ACCEPTANCE (R77,
R83, R165). -/
def State.linesGood (s : State) : Bool :=
  (List.finRange 4).all fun n =>
    (s.line n).exchangeGood && (!s.lineWaits n || (s.line n).state == .awaitingAcceptance)

/-! ## Settings -/

/-- A class row in range (R53). -/
def TariffRow.inRange (t : TariffRow) : Bool := decide (t.base ≤ 65535) && decide (t.free ≤ 80) && decide (t.rate ≤ 4095)

/-- The tariff in range (R53). -/
def Chu.inRange (c : Chu) : Bool :=
  c.tone.inRange && c.numeric.inRange && c.alpha.inRange && decide (8 ≤ c.mu) && decide (c.mu ≤ 32) && decide (c.md ≤ 8)

/-- A line's settings in range: the station list good in POLLED mode and empty in DIRECT mode, and the current station a
position in it (R76, R98). -/
def Line.inRange (l : Line) : Bool :=
  decide (l.n ≤ 4095) && decide (l.e ≤ 1) && (l.stop == 1 || l.stop == 2) && decide (2 ≤ l.wait) && decide (l.wait ≤ 25) &&
  match l.mode with
  | .polled => stationsGood l.stations && decide (l.current < l.stations.length)
  | .direct => l.stations.isEmpty && l.current == 0

/-- The rotation order is an order of RETRY, NORMAL and DEFERRED (R106). -/
def Dsu.rotationGood (d : Dsu) : Bool :=
  d.rotation.length == 3 && d.rotation.contains .retry && d.rotation.contains .normal && d.rotation.contains .deferred

/-- Every setting of every block in the range its rule gives (R1, R53, R76, R106, R129, R149, R153). -/
def State.settingsInRange (s : State) : Bool :=
  [0, 8192, 16384, 32768, 65536].contains s.stu.capacity && s.chu.inRange &&
  s.lines.l0.inRange && s.lines.l1.inRange && s.lines.l2.inRange && s.lines.l3.inRange &&
  s.dsu.rotationGood && s.dsu.overrides.length == 16 && decide (s.dsu.divider ≤ 255) &&
  decide (s.rla.n ≤ 4095) && decide (s.rla.e ≤ 1) && decide (s.rlb.n ≤ 4095) && decide (s.rlb.e ≤ 1) &&
  decide (10 ≤ s.aru.w0) && decide (s.aru.w0 ≤ 600) && decide (1 ≤ s.aru.aMax) && decide (s.aru.aMax ≤ 7) &&
  decide (1 ≤ s.aru.hold) && decide (s.aru.hold ≤ 65535) &&
  decide (1 ≤ s.pdu.p) && decide (s.pdu.p ≤ 65535) && decide (s.pdu.e ≤ 1) &&
  decide (s.pdu.tickMinute < Config.minuteTicks) && decide (s.pdu.minute < Config.minuteModulus) &&
  decide (s.pdu.closeAt < Config.minuteModulus) && decide (s.pdu.period < Config.periodModulus)

/-- Return link B and intake line 3 never hold the shared pin together (R102, R134). -/
def State.pinsShared (s : State) : Bool := !(s.linkBEnabled && s.lines.l3.active)

/-! ## Records -/

/-- The plan's figures: a PREPAID balance at most 16,777,215 and never below pending, a ceiling at most 16,777,215
(R4, R60). -/
def Record.planInRange (r : Record) : Bool :=
  match r.plan with
  | .prepaid balance => decide (r.pending ≤ balance) && decide (balance ≤ Config.unitMax)
  | .account ceiling => decide (ceiling ≤ Config.unitMax)

/-- Presence: UNKNOWN for a ONE-WAY record, and a zone of 0 to 15 when HERE (R4, R6). -/
def Record.presenceInRange (r : Record) : Bool :=
  match r.presence with
  | .unknown => true
  | .here z => r.kind == .twoWay && decide (z ≤ 15)
  | .away => r.kind == .twoWay

/-- The fields of a record in the ranges of R4: pages used at most the allowance (R62), the saturating counters at most
their largest values (R68), at most 16 live slots (R38). -/
def Record.inRange (r : Record) : Bool :=
  decide (1 ≤ r.number) && decide (r.number ≤ Config.numberMax) &&
  decide (1 ≤ r.address) && decide (r.address ≤ Config.addressMax) && r.zones != 0 &&
  r.presenceInRange && r.planInRange && decide (r.charge ≤ Config.unitMax) &&
  decide (r.allowance ≤ 65535) && decide (r.used ≤ r.allowance) && decide (r.delivered ≤ Config.countMax) &&
  decide (r.chars ≤ Config.unitMax) && decide (r.periodTag < Config.periodModulus) && decide (r.nextTag < 128) &&
  decide (r.live.length ≤ Config.liveLimit)

/-- The zone a report carries is 0 to 15 (R129). -/
def Report.inRange : Report → Bool
  | .ack _ _ zone | .register _ zone | .leave _ zone => decide (zone ≤ 15)

/-- Every record in range, with what keeps it so: the period number and the reports that wait in the two FIFOs. -/
def State.recordsInRange (s : State) : Bool :=
  s.stu.records.all (fun p => p.2.inRange) && decide (s.pdu.period < Config.periodModulus) &&
  s.rla.fifo.all Report.inRange && s.rlb.fifo.all Report.inRange

/-! ## Records, slots and their places -/

/-- The slots that are not FREE, with their messages. -/
def State.messages (s : State) : List (Nat × Message) := s.msu.slots.filterMap fun p => p.2.message.map fun m => (p.1, m)

/-- A free list beside the numbers in use: every number once given out is either pushed on the list or in use, none is
both or twice, and the count is the list's (R10, R33). -/
def FreeList.accounts (f : FreeList) (count : Nat) (used : List Nat) : Bool :=
  decide (f.fresh ≤ f.limit) && decide (f.pushed ++ used).Nodup && (f.pushed ++ used).all (fun i => decide (i < f.fresh)) &&
  (f.pushed ++ used).length == f.fresh && count == f.size

/-- Both free lists account for their records and slots; on a READY table they are lists of all T records and of all
2,048 slots, and the store is in low water exactly while its free count is 64 or fewer; a table that is not READY has
every record FREE (R2, R5, R10, R31, R33, R36). -/
def State.freeListsGood (s : State) : Bool :=
  s.stu.free.accounts s.stu.freeCount (s.stu.records.map (·.1)) &&
  s.msu.free.accounts s.msu.freeCount (s.messages.map (·.1)) &&
  if s.stu.state = .ready then
    s.stu.free.limit == s.stu.capacity && s.msu.free.limit == Config.slotCount &&
    s.msu.lowWater == decide (s.msu.freeCount ≤ Config.lowWater)
  else s.stu.records.isEmpty

/-- The state of a record fixes which indexes hold it (R5). Every chain holds, once, records that belong in its bucket,
and that of the number index none that is RETIRING. A record that is ACTIVE or SUSPENDED is the one its number finds,
and every record that is not FREE is the one its address finds: no two share a key. -/
def State.indexed (s : State) : Bool :=
  s.stu.numberIndex.all (fun p => decide p.2.Nodup && p.2.all fun i =>
    (s.record? i).any fun r => r.state != .retiring && s.stu.numberBucket r.number == p.1) &&
  s.stu.addressIndex.all (fun p => decide p.2.Nodup && p.2.all fun i =>
    (s.record? i).any fun r => s.stu.addressBucket r.address == p.1) &&
  s.stu.records.all (fun p => (p.2.state == .retiring || s.findNumber p.2.number == some p.1) &&
    s.findAddress p.2.address == some p.1)

/-- Every slot in a place, place by place: the four queues, the staging buffer, the sending buffer, the timed list. -/
def State.placed (s : State) : List Nat :=
  s.dsu.queues.urgent ++ s.dsu.queues.normal ++ s.dsu.queues.deferred ++ s.dsu.queues.retry ++
  (s.dsu.staging.map (·.slot)).toList ++ (s.dsu.sending.map (·.slot)).toList ++ s.aru.timed

/-- The place that the state of a slot names holds it (R31). -/
def State.holds (s : State) (n : Nat) : Place → Bool
  | .queued => s.dsu.queues.urgent.contains n || s.dsu.queues.normal.contains n || s.dsu.queues.deferred.contains n ||
      s.dsu.queues.retry.contains n
  | .staged => (s.dsu.staging.map (·.slot)) == some n
  | .sending => (s.dsu.sending.map (·.slot)) == some n
  | .awaiting _ | .held _ => s.aru.timed.contains n

/-- Every slot that is not FREE is in exactly one place, the one its state names (R31). -/
def State.placesGood (s : State) : Bool :=
  decide s.placed.Nodup && s.placed.all (fun n => (s.message? n).isSome) && s.messages.all fun p => s.holds p.1 p.2.place

/-- The slot is HELD. -/
def Message.isHeld (m : Message) : Bool :=
  match m.place with
  | .held _ => true
  | _ => false

/-- Every slot that is not FREE is in the live list of its owner, and in its held list exactly when it is HELD; every
slot of a live list is owned by that record; no slot is in a list twice, no two of a live list share a tag, and a held
list has at most 4 slots, all of them live (R38). -/
def State.owned (s : State) : Bool :=
  s.messages.all (fun p => (s.record? p.2.owner).any fun r =>
    r.live.contains p.1 && r.held.contains p.1 == p.2.isHeld) &&
  s.stu.records.all fun p =>
    decide p.2.live.Nodup && p.2.live.all (fun n => (s.message? n).any fun m => m.owner == p.1) &&
    decide (s.liveTags p.2).Nodup && decide p.2.held.Nodup && p.2.held.all (fun n => p.2.live.contains n) &&
    decide (p.2.held.length ≤ Config.heldLimit)

/-- The charge reserved for the slots of a record's live list. -/
def State.reservedCharge (s : State) (r : Record) : Nat := (r.live.map fun n => (s.message? n).elim 0 (·.charge)).sum

/-- Every record's pending is the sum of the reserved charges of the slots in its live list (R62). -/
def State.reserved (s : State) : Bool := s.stu.records.all fun p => p.2.pending == s.reservedCharge p.2

/-- The records whose closing entry waits for extract space. -/
def State.closingIndexes (s : State) : List Nat :=
  s.pdu.waiters.filterMap fun
    | .closing i _ => some i
    | _ => none

/-- A record carries the closing-pending mark exactly while it is RETIRING with an empty live list, and then its closing
entry has one place in the list of waiters (R5, R24). -/
def State.closingsGood (s : State) : Bool :=
  decide s.closingIndexes.Nodup && s.closingIndexes.all (fun i => (s.record? i).isSome) &&
  s.stu.records.all fun p =>
    p.2.closing == (p.2.state == .retiring && p.2.live.isEmpty) && p.2.closing == s.closingIndexes.contains p.1

/-- The whole of it. None of these is kept without the others. -/
def State.storeGood (s : State) : Bool :=
  s.freeListsGood && s.indexed && s.placesGood && s.owned && s.reserved && s.closingsGood

/-! ## Nothing left undone -/

/-- The part is settled: no take that R108 allows, no move that R120 allows, no outage mark that R118 sets or clears, no
TRAFFIC RESET that R51 completes, no stalled sweep that R161 resumes, and no queued command that R175 starts. Each of
these is made in the event that allows it, so every event leaves the part settled. -/
def State.settled (s : State) : Bool :=
  s.dsu.rotationGood && !s.takeAllowed && !s.moveAllowed && !s.outageDue && !(s.dsu.outage && decide (s.liveZones ≠ 0)) &&
  (match s.msu.flush with | some f => !s.resetDone f | none => true) &&
  !(s.pdu.sweep == .stalled && !s.sweepBlocked) && (s.clu.queue.isEmpty || s.responseFull)

/-- Every property of this file. -/
def State.sound (s : State) : Bool :=
  s.canonical && s.bounded && s.chainsBounded && s.waitersOnce && s.pinsDriven && s.linesGood && s.settingsInRange &&
  s.pinsShared &&
  s.recordsInRange && s.storeGood && s.settled

/-! ## The order of the timed list -/

/-- A slot has joined a timed list by R142: after every slot whose deadline is at or before its own and before the first
slot whose deadline is later, the others in their order. -/
def joinsInOrder (deadlineOf : Nat → Tick) (n : Nat) (d : Tick) (old new : List Nat) : Prop :=
  ∃ front back, old = front ++ back ∧ new = front ++ n :: back ∧ (∀ k ∈ front, (deadlineOf k - d).toInt ≤ 0) ∧
    ∀ k, back.head? = some k → 0 < (deadlineOf k - d).toInt

end Sys2Proof.Machine
end

