-- ==== Sys2Proof/WellFormed.lean ====
section
/-! DEFINITION. Which terms of `Instr` a host can send. Every operand that is one field of fixed width is well formed
at every value of it; the checks concern the operands of varying length. -/

namespace Sys2Proof

/-- A selector written as `TariffArgs.other` names no class and not MULTIPLIERS, and two or more bytes follow it
(R188: it passes the length check at a parameter byte count of 3 or more). -/
def TariffArgs.wellFormed : TariffArgs → Bool
  | .other selector rest => decide (4 ≤ selector.toNat) && decide (2 ≤ rest.length)
  | _ => true

/-- A command frame's length byte counts the code, the tag and every parameter byte (R188). -/
def Instr.frameFits (i : Instr) : Bool := decide (2 + i.parameters.length ≤ 255)

/-- A command is well formed when the length byte of its frame can count it, and SET TARIFF names its selector by the
constructor of that selector. -/
def Instr.wellFormed (i : Instr) : Bool :=
  i.frameFits && match i with
    | .setTariff _ a => a.wellFormed
    | _ => true

end Sys2Proof
end

