-- ==== Sys2Proof/Certificates/Slice0/Obligations.lean ====
section
/-! DEFINITION. The statements about the model. A statement of an effect writes the next state out as the rules give it.
Where an event can make a take, a move or an outage notice possible, its next state ends in `State.afterTraffic`, which
makes them in that same event (R51, R108, R118, R120, R161); `Obligations.AfterTraffic` says what that does. -/

open Sys2Proof Sys2Proof.Machine

/-! ## The queue, reset, and what every step keeps -/

/-- A step takes the command at the front of the queue and runs it on the state with the queue's rest. With no command
waiting the part idles: that clause is the model's choice, notes/assumptions/2.md. -/
def Obligations.StepRunsFrontCommand : Prop :=
  (∀ (c : Instr) (rest : List Instr) (s : State), s.pending = c :: rest → step s = exec c { s with pending := rest }) ∧
  (∀ s : State, s.pending = [] → step s = .next s)

/-- Every command of the table answers a next state from every state, and so does every step: no command faults and
none is refused. (That an event row whose condition does not hold answers the state as it is, is the model's reading,
notes/assumptions/5.md.) -/
def Obligations.EveryCommandCompletes : Prop :=
  (∀ (c : Instr) (s : State), ∃ t : State, exec c s = .next t) ∧ ∀ s : State, ∃ t : State, step s = .next t

/-- HARDWARE_RESET puts every block in its hardware-reset state, whatever the part was doing; the levels of the input
pins and the waiting commands stay (notes/assumptions/1.md names the pin levels of `State.reset`). (That they stay is
the model's reading, notes/assumptions/30.md; so is that the record table and the slot table, whose contents R3 and
R33 do not rely on, are empty, notes/assumptions/24.md.) -/
def Obligations.HardwareResetValues : Prop :=
  ∀ s : State, ∃ t : State, exec .hardwareReset s = .next t ∧ t.pins = s.pins ∧ t.pending = s.pending ∧
    t.stu.state = .unformatted ∧ t.stu.capacity = 0 ∧ t.stu.freeCount = 0 ∧ t.stu.records = [] ∧
    t.msu.slots = [] ∧ t.msu.freeCount = 0 ∧ t.msu.lowWater = false ∧ t.msu.flush = none ∧
    t.chu = { tone := ⟨0, 0, 0⟩, numeric := ⟨0, 0, 0⟩, alpha := ⟨0, 0, 0⟩, mu := 8, md := 8 } ∧
    (∀ n : Fin 4, t.line n =
      { state := .disabled, mode := .direct, n := 0, e := 0, parity := .none, stop := 1, stations := [], wait := 5,
        current := 0, fifo := [], breakRun := 0, frame := none, request := none, interTimer := none,
        stationTimer := none, reply := [], polls := [], disablePending := false, rdy := false }) ∧
    t.dsu.queues = ⟨[], [], [], []⟩ ∧ t.dsu.mode = .fixed ∧ t.dsu.rotation = [.retry, .normal, .deferred] ∧
    t.dsu.staging = none ∧ t.dsu.sending = none ∧ t.dsu.refusal = false ∧
    t.dsu.overrides = List.replicate 16 .follow ∧ t.dsu.service = 0 ∧ t.dsu.outage = false ∧ t.dsu.hold = false ∧
    t.dsu.divider = 255 ∧
    (∀ l : Link, t.receiver l =
      { state := .disabled, n := 0, e := 0, parity := .none, chars := [], spoiled := false, timer := none, fifo := [],
        episode := false, dropped := 0, rejected := 0 }) ∧
    t.aru = { timed := [], w0 := 150, aMax := 4, hold := 1440 } ∧
    t.pdu.p = 1 ∧ t.pdu.e = 0 ∧ t.pdu.tickLength = 1024 ∧ t.pdu.tick = 0 ∧ t.pdu.tickMinute = 0 ∧ t.pdu.minute = 0 ∧
    t.pdu.closeAt = 0 ∧ t.pdu.auto = false ∧ t.pdu.period = 0 ∧ t.pdu.sweep = .idle ∧ t.pdu.cursor = 0 ∧
    t.pdu.entries = 0 ∧ t.pdu.extract = [] ∧ t.pdu.waiters = [] ∧
    t.clu = { exchange := none, queue := [], inProgress := [], responses := [], notices := [], overflow := false,
              dropped := false, resetSeen := true, attn := false }

/-- The state right after reset satisfies every property that the step keeps. -/
def Obligations.ResetIsSound : Prop :=
  State.reset.canonical = true ∧ State.reset.bounded = true ∧ State.reset.chainsBounded = true ∧
  State.reset.waitersOnce = true ∧ State.reset.pinsDriven = true ∧ State.reset.pinsShared = true ∧
  State.reset.linesGood = true ∧
  State.reset.settingsInRange = true ∧ State.reset.recordsInRange = true ∧ 
  State.reset.storeGood = true ∧ State.reset.settled = true

/-- Every step keeps the canonical form of the record table, the slot table and both indexes. -/
def Obligations.StepKeepsCanonicalForm : Prop :=
  ∀ s t : State, s.canonical = true → step s = .next t → t.canonical = true

/-- Every step keeps every FIFO and queue within its capacity; apart from that, every index chain at 12 records or
fewer; and each kind of waiter that R165 marks "once" at one place in the list of waiters. -/
def Obligations.StepKeepsCapacities : Prop :=
  (∀ s t : State, step s = .next t →
     (s.bounded = true → t.bounded = true) ∧ (s.chainsBounded = true → t.chainsBounded = true)) ∧
  (∀ s t : State, s.waitersOnce = true → step s = .next t → t.waitersOnce = true)

/-- Every step leaves ATTN and every RDY output at the level that the FIFOs and states give them. Every step keeps: on each
line a frame, an acceptance request or a reply exactly while its state has one, and a place in the list of waiters only
while it is AWAITING ACCEPTANCE; and, with that, return link B and intake line 3 from being enabled together. -/
def Obligations.StepKeepsPins : Prop :=
  ∀ s t : State, step s = .next t →
    (s.pinsDriven = true → t.pinsDriven = true) ∧
    (s.linesGood = true → s.waitersOnce = true → t.linesGood = true ∧ (s.pinsShared = true → t.pinsShared = true))

/-- Every step keeps every setting in the range its rule gives, the rotation order an order of the three queues, and
every POLLED line's current station a position in its station list. -/
def Obligations.StepKeepsSettings : Prop :=
  ∀ s t : State, s.settingsInRange = true → step s = .next t → t.settingsInRange = true

/-- Every step keeps every record in range: no PREPAID balance below pending, pages used at most the allowance, the
saturating counters at most their largest values, no presence on a ONE-WAY record. -/
def Obligations.StepKeepsRecords : Prop :=
  ∀ s t : State, s.recordsInRange = true → step s = .next t → t.recordsInRange = true

/-- Every step leaves nothing undone that a rule does in the event allowing it: no take, move, outage mark, reset
completion, sweep resumption or command start is left over. (That all of these are made inside the event is the
model's reading of R108, R118, R120, R161 and R175, notes/assumptions/6.md and notes/assumptions/7.md; that a live set
clears the outage mark during a TRAFFIC RESET too is notes/assumptions/40.md, and that no take is left over while a
completion waits is notes/assumptions/13.md.) -/
def Obligations.StepLeavesNothingUndone : Prop :=
  ∀ s t : State, s.settled = true → step s = .next t → t.settled = true

/-- Only a tick event and a hardware reset change the tick counter, and only a hardware reset sets the reset
indication. No command of the table changes State.pending, the model's own queue of the commands that wait to be taken,
which is not the command queue of R174; that clause is the model's choice, notes/assumptions/2.md and
notes/assumptions/33.md, and that a hardware reset too keeps that queue is its reading, notes/assumptions/30.md. -/
def Obligations.TimeAndResetIndication : Prop :=
  ∀ (c : Instr) (s t : State), exec c s = .next t →
    t.pending = s.pending ∧
    (c ≠ .tick → c ≠ .minuteAdvance → c ≠ .hardwareReset → t.pdu.tick = s.pdu.tick) ∧
    (c ≠ .hardwareReset → t.clu.resetSeen = true → s.clu.resetSeen = true)

/-! ## The command link -/

/-- The bytes of a well-formed host command are read back as that command. -/
def Obligations.CommandFrameRoundTrip : Prop :=
  ∀ (i : Instr) (code : Byte), i.wellFormed = true → i.commandCode = some code →
    parseCommand code i.hostTag i.parameters = .command i

/-- The end of an exchange that carried the frame of a well-formed host command, with no response to remove and
nothing queued, is the row of that command on the state with the exchange ended. -/
def Obligations.ExchangeRunsHostCommand : Prop :=
  ∀ (i : Instr) (s : State) (x : Exchange), i.wellFormed = true → i.commandCode.isSome = true →
    s.clu.exchange = some x → x.response = none → s.clu.queue = [] → s.responseFull = false →
    ∃ t : State, exec (.exchangeEnd i.commandFrame) s = .next t ∧
      exec i { s with clu := { s.clu with exchange := none } } = .next t

/-- The status byte: its six fields in their bits, and the two bytes the manual writes out. -/
def Obligations.StatusByteLayout : Prop :=
  (∀ s : State, s.clu.queue.length ≤ 4 →
    s.statusByte.getLsbD 7 = !s.clu.responses.isEmpty ∧ s.statusByte.getLsbD 6 = !s.clu.notices.isEmpty ∧
    s.statusByte.getLsbD 5 = s.clu.dropped ∧ s.statusByte.getLsbD 4 = s.clu.resetSeen ∧
    (s.statusByte.extractLsb' 1 3).toNat = s.clu.queue.length ∧
    s.statusByte.getLsbD 0 = !s.clu.inProgress.isEmpty ∧
    (s.clu.responses ≠ [] → s.clu.notices ≠ [] → s.clu.dropped = false → s.clu.resetSeen = false →
      s.clu.queue.length = 2 → s.clu.inProgress ≠ [] → s.statusByte = 0xC5)) ∧
  State.reset.statusByte = 0x10

/-- EXCHANGE_BEGIN takes the snapshot of the status byte and the head response; what is shifted is the status byte and
that frame, or a frame of length zero, and then zero bytes for as long as the host goes on clocking, each byte most
significant bit first, on MOSI too; MISO is undriven with no exchange in progress. STATUS_BYTE_READ_OUT clears both
indications once in the exchange. (That a second read-out in one exchange does nothing, and that a byte cut off within its
bits does not count, are the model's choices, notes/assumptions/16.md; that MISO is undriven after a hardware reset in an
exchange is its reading, notes/assumptions/18.md.) -/
def Obligations.ExchangeBeginAndReadOut : Prop :=
  (∀ s : State, s.clu.exchange = none → exec .exchangeBegin s = .next { s with clu := { s.clu with
      exchange := some { statusByte := s.statusByte, response := s.clu.responses.head?, readOut := false } } }) ∧
  (∀ (s : State) (x : Exchange), s.clu.exchange = some x → x.readOut = false →
    exec .statusByteReadOut s = .next { s with clu := { s.clu with
      exchange := some { x with readOut := true }, dropped := false, resetSeen := false } }) ∧
  (∀ (s : State) (x : Exchange), s.clu.exchange = some x → x.readOut = true →
    exec .statusByteReadOut s = .next s) ∧
  (∀ x : Exchange, x.response = none → x.miso = [x.statusByte, 0, 0]) ∧
  (∀ (x : Exchange) (r : Response), x.response = some r →
    x.miso = x.statusByte :: (nat2 (3 + r.params.length) ++ r.code :: r.tag :: r.result.code :: r.params)) ∧
  (∀ (x : Exchange) (n : Nat), (n ≤ x.miso.length → x.shifted n = x.miso.take n) ∧
    x.shifted (x.miso.length + n) = x.miso ++ List.replicate n 0) ∧
  (∀ (s : State) (n : Nat), (s.clu.exchange = none → s.misoBits n = none) ∧
    (∀ x, s.clu.exchange = some x → ∃ bits, s.misoBits n = some bits ∧ bits.length = 8 * n ∧
      ∀ k b i, (x.shifted n)[k]? = some b → i < 8 → bits[8 * k + i]? = some (b.getLsbD (7 - i)))) ∧
  (∀ (bytes : List Byte) (cut : List Bool), cut.length < 8 →
    mosiBytes (bytes.flatMap (fun b => (List.range 8).map fun i => b.getLsbD (7 - i)) ++ cut) = bytes)

/-- EXCHANGE_END with no command on MOSI: a response shifted out whole leaves the FIFO, ATTN follows, and queued
commands start; a response cut short stays. EXCHANGE_END with a frame on MOSI while the response FIFO is full: a frame
whose code and tag came joins the queue, marked short when bytes are missing, unless 4 frames wait; a frame cut short
before its tag, or offered to a full queue, sets the command dropped indication. A length of zero with no response
waiting changes no command state. In general the response shifted out whole is removed first, with the starts that
allows, and the frame is then offered to the queue as it stands; so a host command that comes while nothing is queued
starts in the event. (Two readings of the model: an exchange of no whole byte ended inside the length,
notes/assumptions/15.md; an exchange is the whole bytes clocked in it, notes/assumptions/16.md.) -/
def Obligations.ExchangeEndOutcomes : Prop :=
  (∀ (s : State) (x : Exchange) (r : Response) (mosi : List Byte),
     s.clu.exchange = some x → x.response = some r → mosi.head? = some 0 →
     (6 + r.params.length ≤ mosi.length → exec (.exchangeEnd mosi) s = .next (State.startWaiting { s with clu := { s.clu with
       exchange := none, responses := s.clu.responses.tail,
       attn := !s.clu.responses.tail.isEmpty || !s.clu.notices.isEmpty } })) ∧
     (mosi.length < 6 + r.params.length →
       exec (.exchangeEnd mosi) s = .next { s with clu := { s.clu with exchange := none } })) ∧
  ((∀ (s : State) (x : Exchange) (length code tag : Byte) (bytes : List Byte),
     s.clu.exchange = some x → x.response = none → 2 ≤ length.toNat → s.responseFull = true →
     (s.clu.queue.length < 4 → exec (.exchangeEnd (length :: code :: tag :: bytes)) s = .next { s with clu := { s.clu with
       exchange := none
       queue := s.clu.queue ++
         [⟨code, tag, bytes.take (length.toNat - 2), decide (bytes.length < length.toNat - 2)⟩] } }) ∧
     (4 ≤ s.clu.queue.length → exec (.exchangeEnd (length :: code :: tag :: bytes)) s = .next { s with clu := { s.clu with
       exchange := none, dropped := true } })) ∧
   (∀ (s : State) (x : Exchange) (mosi : List Byte), s.clu.exchange = some x → x.response = none →
     (mosi = [] ∨ (∃ rest, mosi = 1 :: rest) ∨ (mosi.length ≤ 2 ∧ ∃ length rest, mosi = length :: rest ∧ length ≠ 0)) →
     exec (.exchangeEnd mosi) s = .next { s with clu := { s.clu with exchange := none, dropped := true } })) ∧
  (∀ (s : State) (x : Exchange) (bytes : List Byte), s.clu.exchange = some x → x.response = none →
     exec (.exchangeEnd (0 :: bytes)) s = .next { s with clu := { s.clu with exchange := none } }) ∧
  (∀ (s removed : State) (x : Exchange) (length code tag : Byte) (bytes mosi : List Byte),
     s.clu.exchange = some x → 2 ≤ length.toNat → mosi = length :: code :: tag :: bytes →
     removed = (match x.response with
       | some r =>
         if 6 + r.params.length ≤ mosi.length then State.startWaiting { s with clu := { s.clu with
           exchange := none, responses := s.clu.responses.tail,
           attn := !s.clu.responses.tail.isEmpty || !s.clu.notices.isEmpty } }
         else { s with clu := { s.clu with exchange := none } }
       | none => { s with clu := { s.clu with exchange := none } }) →
     (removed.clu.queue.length < 4 → exec (.exchangeEnd mosi) s = .next (State.startWaiting { removed with
       clu := { removed.clu with queue := removed.clu.queue ++
         [⟨code, tag, bytes.take (length.toNat - 2), decide (bytes.length < length.toNat - 2)⟩] } })) ∧
     (4 ≤ removed.clu.queue.length → exec (.exchangeEnd mosi) s =
       .next { removed with clu := { removed.clu with dropped := true } })) ∧
  (∀ (i : Instr) (s : State) (x : Exchange) (r : Response) (more : List Byte), i.wellFormed = true →
     i.commandCode.isSome = true → s.clu.exchange = some x → x.response = some r → s.clu.queue = [] →
     s.clu.responses ≠ [] → s.clu.responses.length + s.clu.inProgress.length ≤ 8 →
     6 + r.params.length ≤ (i.commandFrame ++ more).length →
     ∃ t : State, exec (.exchangeEnd (i.commandFrame ++ more)) s = .next t ∧
       exec i { s with clu := { s.clu with
         exchange := none, responses := s.clu.responses.tail,
         attn := !s.clu.responses.tail.isEmpty || !s.clu.notices.isEmpty } } = .next t)

/-- COMMAND_START removes the head frame and makes the two checks: an unknown code and a length that does not fit are
answered by the Command Link Unit, and any other command is its own row on the state without the frame. While the
response FIFO is full no host command starts: its row leaves the state as it is (the model's reading for a command
given as its own row, notes/assumptions/3.md). -/
def Obligations.CommandStartTakesHead : Prop :=
  (∀ (s : State) (f : CommandFrame) (rest : List CommandFrame), s.clu.queue = f :: rest → s.responseFull = false →
     (parseCommand f.code f.tag f.params = .unknownCommand → exec .commandStart s =
       .next (State.respond { s with clu := { s.clu with queue := rest } } ⟨f.code, f.tag, .unknownCommand, []⟩)) ∧
     (parseCommand f.code f.tag f.params = .lengthError → exec .commandStart s =
       .next (State.respond { s with clu := { s.clu with queue := rest } } ⟨f.code, f.tag, .lengthError, []⟩)) ∧
     (∀ i, parseCommand f.code f.tag f.params = .command i → f.short = true → exec .commandStart s =
       .next (State.respond { s with clu := { s.clu with queue := rest } } ⟨f.code, f.tag, .lengthError, []⟩)) ∧
     (∀ i, parseCommand f.code f.tag f.params = .command i → f.short = false → ∃ t : State,
       exec .commandStart s = .next t ∧ exec i { s with clu := { s.clu with queue := rest } } = .next t)) ∧
  ((∀ (i : Instr) (s : State), i.commandCode.isSome = true → s.responseFull = true → exec i s = .next s) ∧
   (∀ s : State, s.responseFull = true → exec .commandStart s = .next s))

/-- READ NOTICES removes the oldest notices, ten bytes each, and takes and clears the overflow mark; STATUS reports
and changes nothing but the FIFO that takes its response. (STATUS not listing itself among the commands in progress,
and its layout where R189 leaves room, are the model's readings, notes/assumptions/17.md and notes/assumptions/29.md.)
-/
def Obligations.ReadNoticesAndStatus : Prop :=
  (∀ (tag count : Byte) (s : State), s.responseFull = false →
    ((count = 0 ∨ 8 < count.toNat) → exec (.readNotices tag count) s = .next (s.respond ⟨0x81, tag, .badField, []⟩)) ∧
    (1 ≤ count.toNat → count.toNat ≤ 8 → exec (.readNotices tag count) s =
      .next (State.respond { s with clu := { s.clu with
          notices := s.clu.notices.drop count.toNat, overflow := false } }
        ⟨0x81, tag, .ok, nat1 (min count.toNat s.clu.notices.length) ++
          (s.clu.notices.take count.toNat).flatMap Notice.bytes ++ nat1 (s.clu.notices.length - count.toNat) ++
          flag1 s.clu.overflow⟩))) ∧
  (∀ (tag : Byte) (s : State), s.responseFull = false →
    exec (.status tag) s = .next (s.respond ⟨0x80, tag, .ok,
      nat1 s.stu.state.code ++ nat3 s.stu.capacity ++ nat3 s.stu.freeCount ++ nat2 s.msu.freeCount ++
      flag1 s.msu.lowWater ++ flag1 s.msu.flush.isSome ++
      (match s.msu.flush with | some f => 1 :: nat2 f.cursor | none => [0, 0, 0]) ++
      nat2 s.pdu.period ++ nat1 s.pdu.sweep.code ++ nat3 s.pdu.waiters.length ++ nat1 s.clu.queue.length ++
      nat1 s.clu.inProgress.length ++ s.clu.inProgress.flatMap (fun g => [g.code, g.tag]) ++
      nat1 (s.clu.responses.length + 1) ++ nat1 s.clu.notices.length ++ flag1 s.clu.overflow⟩)) ∧
  (∀ n : Notice, n.bytes.length = 10 ∧ n.bytes = (match n.kind with
    | .recordFreed index number => 0x01 :: (bytes4 n.tick ++ nat2 index ++ nat3 number)
    | .storeLow count => 0x02 :: (bytes4 n.tick ++ nat2 count ++ [0, 0, 0])
    | .storeRecovered count => 0x03 :: (bytes4 n.tick ++ nat2 count ++ [0, 0, 0])
    | .lineDown line => 0x04 :: (bytes4 n.tick ++ nat1 line.val ++ [0, 0, 0, 0])
    | .lineUp line => 0x05 :: (bytes4 n.tick ++ nat1 line.val ++ [0, 0, 0, 0])
    | .zoneOutage => 0x06 :: (bytes4 n.tick ++ [0, 0, 0, 0, 0])
    | .zoneRestored zones => 0x07 :: (bytes4 n.tick ++ bytes2 zones ++ [0, 0, 0])
    | .reportDropped l => 0x08 :: (bytes4 n.tick ++ (match l with | .a => [0] | .b => [1]) ++ [0, 0, 0, 0])
    | .closeStarted period cause =>
      0x09 :: (bytes4 n.tick ++ nat2 period ++ (match cause with | .auto => [0] | .command => [1]) ++ [0, 0])
    | .closeMissed minute period => 0x0A :: (bytes4 n.tick ++ nat3 minute ++ nat2 period)
    | .periodClosed period entries => 0x0B :: (bytes4 n.tick ++ nat2 period ++ nat3 entries)))

/-! ## The subscriber table -/

/-- FORMAT makes its checks in the order of R11; one that is taken makes the table FORMATTING with the new capacity
and no record, and stays in progress. FORMAT_COMPLETION makes the table READY with every record and slot FREE, on its
free list in number order, every bucket of both indexes at end of chain, low water clear, and answers the FORMAT with
the capacity. (When the records and the slots take their FREE values within the FORMAT is the model's reading,
notes/assumptions/24.md.) -/
def Obligations.FormatIsTakenAndCompletes : Prop :=
  (∀ (tag code : Byte) (s : State), s.responseFull = false → s.canonical = true →
     (3 < code.toNat → exec (.format tag code) s = .next (s.respond ⟨0x10, tag, .badField, []⟩)) ∧
     (code.toNat ≤ 3 → ((∃ n, (s.message? n).isSome = true) ∨ s.pdu.sweep ≠ .idle ∨ s.msu.flush.isSome = true ∨
         s.pdu.waiters ≠ []) →
       exec (.format tag code) s = .next (s.respond ⟨0x10, tag, .trafficPresent, []⟩)) ∧
     (code.toNat ≤ 3 → (∀ n, s.message? n = none) → s.pdu.sweep = .idle → s.msu.flush = none → s.pdu.waiters = [] →
       (s.stu.state = .formatting →
         exec (.format tag code) s = .next (s.respond ⟨0x10, tag, .tableNotReady, []⟩)) ∧
       (s.stu.state ≠ .formatting → exec (.format tag code) s = .next { s with
         stu := { state := .formatting, capacity := 8192 * 2 ^ code.toNat, free := .empty, freeCount := 0, records := [],
                  numberIndex := [], addressIndex := [], formatPlace := some s.freshPlace }
         clu := { s.clu with inProgress := s.clu.inProgress ++ [⟨s.freshPlace, 0x10, tag⟩] } }))) ∧
  (∀ (s : State) (place : Nat) (g : Progress), s.stu.state = .formatting → s.stu.formatPlace = some place →
     s.clu.inProgress.find? (fun g => g.place == place) = some g →
     ∃ t : State, exec .formatCompletion s = .next t ∧
       t.stu.state = .ready ∧ t.stu.capacity = s.stu.capacity ∧ t.stu.freeCount = s.stu.capacity ∧
       t.stu.free.toList = List.range s.stu.capacity ∧ t.stu.records = [] ∧
       t.stu.numberIndex = [] ∧ t.stu.addressIndex = [] ∧ (∀ i, t.record? i = none) ∧
       t.msu.slots = [] ∧ t.msu.free.toList = List.range 2048 ∧ t.msu.freeCount = 2048 ∧ t.msu.lowWater = false ∧
       t.clu.responses = s.clu.responses ++ [⟨g.code, g.tag, .ok, nat3 s.stu.capacity⟩] ∧
       t.clu.inProgress = s.clu.inProgress.erase g ∧ t.clu.notices = s.clu.notices ∧
       t.chu = s.chu ∧ t.lines = s.lines ∧ t.dsu = s.dsu ∧ t.rla = s.rla ∧ t.rlb = s.rlb ∧ t.aru = s.aru ∧ t.pdu = s.pdu)

/-- An ADD that passes its checks writes the record of R4 at the head free record, where its number and its address
find it, and leaves every other record and every other block as it was. ADD makes its checks in the order of R13, and
the first that fails gives the result; a refused ADD changes no state. (That a code of 9.6 out of its range fails the
check of the other fields is notes/assumptions/21.md.) -/
def Obligations.AddWritesRecord : Prop :=
  (∀ (tag : Byte) (a : AddArgs) (s : State) (cls : ServiceClass) (kind : PagerKind) (plan : Plan) (i : Nat)
     (free : FreeList), s.responseFull = false → s.stu.state = .ready →
     classOf a.cls = some cls → kindOf a.kind = some kind → planOf a.plan a.amount.toNat = some plan →
     numberInRange a.number = true → addressInRange a.address = true → a.zones ≠ 0 →
     s.findNumber a.number.toNat = none → s.findAddress a.address.toNat = none →
     (chainAt s.stu.numberIndex (s.stu.numberBucket a.number.toNat)).length < 12 →
     (chainAt s.stu.addressIndex (s.stu.addressBucket a.address.toNat)).length < 12 →
     s.stu.free.take = some (i, free) →
     ∃ t : State, exec (.add tag a) s = .next t ∧
       t.record? i = some
         { state := .active, number := a.number.toNat, address := a.address.toNat, cls, kind, zones := a.zones,
           presence := .unknown, plan, pending := 0, charge := 0, saturated := false, allowance := a.allowance.toNat,
           used := 0, delivered := 0, chars := 0, periodTag := s.pdu.period, live := [], held := [], nextTag := 0,
           closing := false } ∧
       t.findNumber a.number.toNat = some i ∧ t.findAddress a.address.toNat = some i ∧
       t.stu.free = free ∧ t.stu.freeCount = s.stu.freeCount - 1 ∧ (∀ j, j ≠ i → t.record? j = s.record? j) ∧
       t.clu = (s.respond ⟨0x11, tag, .ok, nat2 i⟩).clu ∧
       t.pins = s.pins ∧ t.msu = s.msu ∧ t.chu = s.chu ∧ t.lines = s.lines ∧ t.dsu = s.dsu ∧ t.rla = s.rla ∧
       t.rlb = s.rlb ∧ t.aru = s.aru ∧ t.pdu = s.pdu) ∧
  (∀ (tag : Byte) (a : AddArgs) (s : State) (why : Result), s.responseFull = false →
     (if s.stu.state ≠ .ready then why = .tableNotReady
      else if numberInRange a.number = false ∨ addressInRange a.address = false ∨ 2 < a.cls.toNat ∨ 1 < a.kind.toNat ∨
         1 < a.plan.toNat ∨ a.zones = 0 then why = .badField
      else if (s.findNumber a.number.toNat).isSome then why = .numberInUse
      else if (s.findAddress a.address.toNat).isSome then why = .addressInUse
      else if 12 ≤ (chainAt s.stu.numberIndex (s.stu.numberBucket a.number.toNat)).length ∨
         12 ≤ (chainAt s.stu.addressIndex (s.stu.addressBucket a.address.toNat)).length then why = .chainFull
      else s.stu.free.take = none ∧ why = .tableFull) →
     exec (.add tag a) s = .next (s.respond ⟨0x11, tag, why, []⟩))

/-- SUSPEND and RESUME set the state of the record the number names and nothing else of it, and move it in no index.
-/
def Obligations.SuspendAndResume : Prop :=
  ∀ (tag : Byte) (number : BitVec 24) (s : State), s.responseFull = false →
    (s.stu.state ≠ .ready →
      exec (.suspend tag number) s = .next (s.respond ⟨0x13, tag, .tableNotReady, []⟩) ∧
      exec (.resume tag number) s = .next (s.respond ⟨0x14, tag, .tableNotReady, []⟩)) ∧
    (s.stu.state = .ready → s.findNumber number.toNat = none →
      exec (.suspend tag number) s = .next (s.respond ⟨0x13, tag, .unknownSubscriber, []⟩) ∧
      exec (.resume tag number) s = .next (s.respond ⟨0x14, tag, .unknownSubscriber, []⟩)) ∧
    (∀ i r, s.stu.state = .ready → s.findNumber number.toNat = some i → s.record? i = some r →
      exec (.suspend tag number) s = .next (State.respond { s with stu := { s.stu with
        records := s.stu.records.put i { r with state := .suspended } } } ⟨0x13, tag, .ok, nat2 i ++ nat1 2⟩) ∧
      exec (.resume tag number) s = .next (State.respond { s with stu := { s.stu with
        records := s.stu.records.put i { r with state := .active } } } ⟨0x14, tag, .ok, nat2 i ++ nat1 1⟩))

/-- FIND NUMBER and FIND ADDRESS look a key up, and READ RECORD gives the snapshot of R191, written out here; none of
them changes a record, and a record that is not FREE gives 39 bytes, and three more for each live slot and two for
each held one. -/
def Obligations.FindAndReadRecord : Prop :=
  (∀ (tag : Byte) (key : BitVec 24) (s : State), s.responseFull = false →
    (s.stu.state ≠ .ready →
      exec (.findNumber tag key) s = .next (s.respond ⟨0x16, tag, .tableNotReady, []⟩) ∧
      exec (.findAddress tag key) s = .next (s.respond ⟨0x17, tag, .tableNotReady, []⟩)) ∧
    (s.stu.state = .ready →
      ((key.toNat = 0 ∨ 9999999 < key.toNat) →
        exec (.findNumber tag key) s = .next (s.respond ⟨0x16, tag, .badField, []⟩)) ∧
      ((key.toNat = 0 ∨ 1048575 < key.toNat) →
        exec (.findAddress tag key) s = .next (s.respond ⟨0x17, tag, .badField, []⟩)) ∧
      (1 ≤ key.toNat → key.toNat ≤ 9999999 →
        (s.findNumber key.toNat = none → exec (.findNumber tag key) s = .next (s.respond ⟨0x16, tag, .notFound, []⟩)) ∧
        (∀ i r, s.findNumber key.toNat = some i → s.record? i = some r →
          exec (.findNumber tag key) s = .next (s.respond ⟨0x16, tag, .ok, nat2 i ++ nat1 r.state.code⟩))) ∧
      (1 ≤ key.toNat → key.toNat ≤ 1048575 →
        (s.findAddress key.toNat = none → exec (.findAddress tag key) s = .next (s.respond ⟨0x17, tag, .notFound, []⟩)) ∧
        (∀ i r, s.findAddress key.toNat = some i → s.record? i = some r →
          exec (.findAddress tag key) s = .next (s.respond ⟨0x17, tag, .ok, nat2 i ++ nat1 r.state.code⟩))))) ∧
  (∀ (tag : Byte) (index : BitVec 16) (s : State), s.responseFull = false →
    (s.stu.state ≠ .ready → exec (.readRecord tag index) s = .next (s.respond ⟨0x18, tag, .tableNotReady, []⟩)) ∧
    (s.stu.state = .ready → s.stu.capacity ≤ index.toNat →
      exec (.readRecord tag index) s = .next (s.respond ⟨0x18, tag, .badField, []⟩)) ∧
    (s.stu.state = .ready → index.toNat < s.stu.capacity → s.record? index.toNat = none →
      exec (.readRecord tag index) s = .next (s.respond ⟨0x18, tag, .ok, nat2 index.toNat ++ nat1 0⟩)) ∧
    (∀ r bytes, s.stu.state = .ready → index.toNat < s.stu.capacity → s.record? index.toNat = some r →
      bytes = nat2 index.toNat ++
        nat1 (match r.state with | .active => 1 | .suspended => 2 | .retiring => 3) ++ nat3 r.number ++
        nat3 r.address ++
        nat1 (match r.cls with | .tone => 0 | .numeric => 1 | .alpha => 2) ++
        nat1 (match r.kind with | .oneWay => 0 | .twoWay => 1) ++ bytes2 r.zones ++
        nat1 (match r.presence with | .unknown => 0x00 | .here z => 0x10 + z | .away => 0x20) ++
        (match r.plan with | .prepaid balance => 0 :: nat3 balance | .account ceiling => 1 :: nat3 ceiling) ++
        nat3 r.pending ++ nat3 r.charge ++
        [(if r.saturated then 1#8 else 0#8) ||| (if r.closing then 2#8 else 0#8)] ++ nat2 r.allowance ++ nat2 r.used ++
        nat2 r.delivered ++ nat3 r.chars ++ nat2 r.periodTag ++ nat1 r.nextTag ++ nat1 r.live.length ++
        r.live.flatMap (fun n => nat2 n ++ nat1 (match s.message? n with | some m => m.tag | none => 0)) ++
        nat1 r.held.length ++ r.held.flatMap nat2 →
      exec (.readRecord tag index) s = .next (s.respond ⟨0x18, tag, .ok, bytes⟩) ∧
      bytes.length = 39 + 3 * r.live.length + 2 * r.held.length))

/-- ALTER makes its checks in the order of R15, and the first that fails gives the result. One that passes them all
changes in one event the fields it carries and no other field of the record: presence becomes UNKNOWN when the pager
kind differs, and a new allowance is never below pages used. The record moves to the head of the chain of a new number
or address, and is found by both. With a new allowance the touch-sweep it needs is made first (`s₁`), and without room
for its entry the ALTER waits. (That the naming number is among the fields of the range check, and the allowance in
the response, are the model's readings, notes/assumptions/19.md and notes/assumptions/29.md.) -/
def Obligations.AlterMakesItsChanges : Prop :=
  ∀ (tag : Byte) (a : AlterArgs) (s : State), s.responseFull = false →
    (∀ why : Result,
      (if s.stu.state ≠ .ready then why = .tableNotReady
       else if numberInRange a.number = false ∨ a.newNumber.any (fun v => !numberInRange v) ∨
          a.newAddress.any (fun v => !addressInRange v) ∨ a.newClass.any (fun c => decide (2 < c.toNat)) ∨
          a.newKind.any (fun k => decide (1 < k.toNat)) ∨ a.newZones = some 0 ∨
          a.newPlan.any (fun p => decide (1 < p.1.toNat)) ∨ (a.newCeiling.isSome ∧ a.newPlan.isSome)
         then why = .badField
       else match s.findNumber a.number.toNat with
        | none => why = .unknownSubscriber
        | some i => ∃ r, s.record? i = some r ∧
          if a.newCeiling.isSome ∧ r.plan.code = 0 then why = .badField
          else if a.newAddress.any (fun v => decide (v.toNat ≠ r.address)) ∧ r.live ≠ [] then why = .addressBusy
          else if (a.newClass.any (fun c => decide (classOf c ≠ some r.cls)) ∨
              a.newKind.any (fun k => decide (kindOf k ≠ some r.kind))) ∧ r.live ≠ [] then why = .classBusy
          else if a.newPlan.isSome ∧ r.pending ≠ 0 then why = .planBusy
          else if a.newNumber.any (fun v => decide (v.toNat ≠ r.number) && (s.findNumber v.toNat).isSome)
            then why = .numberInUse
          else if a.newAddress.any (fun v => decide (v.toNat ≠ r.address) && (s.findAddress v.toNat).isSome)
            then why = .addressInUse
          else (a.newNumber.any (fun v => decide (v.toNat ≠ r.number) &&
              decide (12 ≤ ((chainAt s.stu.numberIndex (s.stu.numberBucket v.toNat)).erase i).length)) ∨
            a.newAddress.any (fun v => decide (v.toNat ≠ r.address) &&
              decide (12 ≤ ((chainAt s.stu.addressIndex (s.stu.addressBucket v.toNat)).erase i).length))) ∧
            why = .chainFull) →
      exec (.alter tag a) s = .next (s.respond ⟨0x12, tag, why, []⟩)) ∧
    (∀ i r, s.stu.state = .ready → numberInRange a.number = true → (∀ v ∈ a.newNumber, numberInRange v = true) →
      (∀ v ∈ a.newAddress, addressInRange v = true) → (∀ c ∈ a.newClass, c.toNat ≤ 2) → (∀ k ∈ a.newKind, k.toNat ≤ 1) →
      a.newZones ≠ some 0 → (∀ p ∈ a.newPlan, p.1.toNat ≤ 1) → (a.newCeiling = none ∨ a.newPlan = none) →
      s.findNumber a.number.toNat = some i → s.record? i = some r →
      (a.newCeiling ≠ none → ∃ ceiling, r.plan = .account ceiling) →
      (∀ v ∈ a.newAddress, v.toNat = r.address ∨ r.live = []) →
      (∀ c ∈ a.newClass, classOf c = some r.cls ∨ r.live = []) →
      (∀ k ∈ a.newKind, kindOf k = some r.kind ∨ r.live = []) →
      (a.newPlan = none ∨ r.pending = 0) →
      (∀ v ∈ a.newNumber, v.toNat = r.number ∨ (s.findNumber v.toNat = none ∧
        ((chainAt s.stu.numberIndex (s.stu.numberBucket v.toNat)).erase i).length < 12)) →
      (∀ v ∈ a.newAddress, v.toNat = r.address ∨ (s.findAddress v.toNat = none ∧
        ((chainAt s.stu.addressIndex (s.stu.addressBucket v.toNat)).erase i).length < 12)) →
      (∀ b, b ≠ s.stu.numberBucket r.number → i ∉ chainAt s.stu.numberIndex b) →
      (∀ b, b ≠ s.stu.addressBucket r.address → i ∉ chainAt s.stu.addressIndex b) →
      (a.newAllowance ≠ none → s.touch false i = none → exec (.alter tag a) s = .next { s with
        pdu := { s.pdu with waiters := s.pdu.waiters ++ [.command s.freshPlace (.alter a)] }
        clu := { s.clu with inProgress := s.clu.inProgress ++ [⟨s.freshPlace, 0x12, tag⟩] } }) ∧
      (∀ s₁ r₁ (number address : Nat) (kind : PagerKind),
        (if a.newAllowance = none then s₁ = s else s.touch false i = some s₁) → s₁.record? i = some r₁ →
        number = (match a.newNumber with | some v => v.toNat | none => r.number) →
        address = (match a.newAddress with | some v => v.toNat | none => r.address) →
        kind = (match a.newKind with | some k => if k = 0 then .oneWay else .twoWay | none => r.kind) →
        ∃ t : State, exec (.alter tag a) s = .next t ∧
          t.record? i = some { r₁ with
            number := number
            address := address
            cls := (match a.newClass with
              | some c => if c = 0 then .tone else if c = 1 then .numeric else .alpha
              | none => r.cls)
            kind := kind
            presence := if kind = r.kind then r.presence else .unknown
            zones := a.newZones.getD r.zones
            plan := (match a.newPlan, a.newCeiling with
              | some p, _ => if p.1 = 0 then .prepaid p.2.toNat else .account p.2.toNat
              | none, some c => .account c.toNat
              | none, none => r.plan)
            allowance := (match a.newAllowance with | some v => max v.toNat r₁.used | none => r.allowance) } ∧
          (∀ j, j ≠ i → t.record? j = s₁.record? j) ∧ t.findNumber number = some i ∧
          (s.findAddress r.address = some i → t.findAddress address = some i) ∧
          (∀ b, chainAt t.stu.numberIndex b = if number = r.number then chainAt s.stu.numberIndex b
            else (if b = s.stu.numberBucket number then [i] else []) ++ (chainAt s.stu.numberIndex b).erase i) ∧
          (∀ b, chainAt t.stu.addressIndex b = if address = r.address then chainAt s.stu.addressIndex b
            else (if b = s.stu.addressBucket address then [i] else []) ++ (chainAt s.stu.addressIndex b).erase i) ∧
          t.clu = (s.respond ⟨0x12, tag, .ok, nat2 i ++
            (match a.newAllowance with | some v => nat2 (max v.toNat r₁.used) | none => [])⟩).clu ∧
          t.stu.free = s.stu.free ∧ t.stu.freeCount = s.stu.freeCount ∧ t.pins = s.pins ∧ t.msu = s.msu ∧
          t.chu = s.chu ∧ t.lines = s.lines ∧ t.dsu = s.dsu ∧ t.rla = s.rla ∧ t.rlb = s.rlb ∧ t.aru = s.aru ∧
          t.pdu = s₁.pdu))

/-- A touch-sweep, the closing of one record's old period: none is needed with no sweep in progress or with the
current tag; one that is needed writes the old-period entry and resets the period counters when the extract FIFO has
room and nothing waits, or the operation is at the head of the list being taken anew; otherwise it cannot be made. -/
def Obligations.TouchSweep : Prop :=
  ∀ (s : State) (anew : Bool) (i : Nat),
    (s.record? i = none → s.touch anew i = some s) ∧
    (∀ r, s.record? i = some r →
      ((s.pdu.sweep = .idle ∨ r.periodTag = s.pdu.period) → s.touch anew i = some s) ∧
      (s.pdu.sweep ≠ .idle → r.periodTag ≠ s.pdu.period →
        ((anew = true ∨ s.pdu.waiters = []) → s.pdu.extract.length < 64 → s.touch anew i = some { s with
          stu := { s.stu with records := s.stu.records.put i { r with
            used := 0, delivered := 0, chars := 0, charge := 0, saturated := false, periodTag := s.pdu.period } }
          pdu := { s.pdu with
            entries := s.pdu.entries + 1
            extract := s.pdu.extract ++ [
              { number := r.number, index := i, address := r.address, plan := r.plan, period := r.periodTag,
                delivered := r.delivered, within := r.used, chars := r.chars, charge := r.charge,
                saturated := r.saturated, pending := r.pending, closing := false }] } }) ∧
        (((anew = false ∧ s.pdu.waiters ≠ []) ∨ 64 ≤ s.pdu.extract.length) → s.touch anew i = none)))

/-- RETIRE: refused by its three checks; a DRAIN of a record with live slots makes it RETIRING and settles nothing; a
record without live slots is freed at once where the extract has room for its closing entry, and else waits with its
closing-pending mark; a PURGE cancels each live slot by its state, in live-list order, and answers how many it settled
and whether the record was freed; a RETIRE leaves the number index, and a freeing the address index too; where a
touch-sweep is needed first and has no room, the RETIRE waits with nothing done. (That the response says whether the
record was freed by a flag byte, and that a TRAFFIC RESET in progress does not count the record that a RETIRE
frees, are the model's readings, notes/assumptions/29.md and notes/assumptions/26.md.) -/
def Obligations.RetireDrainsOrFrees : Prop :=
  ∀ (tag : Byte) (number : BitVec 24) (mode : Byte) (s : State), s.responseFull = false →
    (s.stu.state ≠ .ready →
      exec (.retire tag number mode) s = .next (s.respond ⟨0x15, tag, .tableNotReady, []⟩).afterTraffic) ∧
    (s.stu.state = .ready → 1 < mode.toNat →
      exec (.retire tag number mode) s = .next (s.respond ⟨0x15, tag, .badField, []⟩).afterTraffic) ∧
    (s.stu.state = .ready → mode.toNat ≤ 1 → s.findNumber number.toNat = none →
      exec (.retire tag number mode) s = .next (s.respond ⟨0x15, tag, .unknownSubscriber, []⟩).afterTraffic) ∧
    (∀ i r, s.stu.state = .ready → s.findNumber number.toNat = some i → s.record? i = some r →
      (mode = 0 → r.live ≠ [] → ∃ u : State, exec (.retire tag number mode) s = .next u.afterTraffic ∧
        u.record? i = some { r with state := .retiring } ∧ (∀ j, j ≠ i → u.record? j = s.record? j) ∧
        u.clu = (s.respond ⟨0x15, tag, .ok, nat2 i ++ [0, 0]⟩).clu ∧ u.stu.addressIndex = s.stu.addressIndex ∧
        (∀ b, chainAt u.stu.numberIndex b = if b = s.stu.numberBucket r.number
          then (chainAt s.stu.numberIndex b).erase i else chainAt s.stu.numberIndex b) ∧
        u.stu.free = s.stu.free ∧ u.msu = s.msu ∧ u.dsu = s.dsu ∧ u.aru = s.aru ∧ u.pdu = s.pdu ∧ u.lines = s.lines) ∧
      (mode.toNat ≤ 1 → s.retireReaches (mode == 1) r = true → s.touch false i = none →
        exec (.retire tag number mode) s = .next (State.afterTraffic { s with
          pdu := { s.pdu with waiters := s.pdu.waiters ++ [.command s.freshPlace (.retire number mode)] }
          clu := { s.clu with inProgress := s.clu.inProgress ++ [⟨s.freshPlace, 0x15, tag⟩] } })) ∧
      (∀ s₁ r₁, mode.toNat ≤ 1 → r.live = [] → s.touch false i = some s₁ → s₁.record? i = some r₁ →
        (s₁.pdu.waiters = [] → s₁.pdu.extract.length < 64 → s₁.clu.notices.length < 32 →
          ∃ u : State, exec (.retire tag number mode) s = .next u.afterTraffic ∧
            u.record? i = none ∧ (∀ j, j ≠ i → u.record? j = s₁.record? j) ∧
            (∀ b, chainAt u.stu.numberIndex b = if b = s.stu.numberBucket r.number
              then (chainAt s.stu.numberIndex b).erase i else chainAt s.stu.numberIndex b) ∧
            (∀ b, chainAt u.stu.addressIndex b = if b = s.stu.addressBucket r.address
              then (chainAt s.stu.addressIndex b).erase i else chainAt s.stu.addressIndex b) ∧
            u.stu.free.toList = i :: s.stu.free.toList ∧ u.stu.freeCount = s.stu.freeCount + 1 ∧
            u.pdu.extract = s₁.pdu.extract ++ [
              { number := r₁.number, index := i, address := r₁.address, plan := r₁.plan, period := r₁.periodTag,
                delivered := r₁.delivered, within := r₁.used, chars := r₁.chars, charge := r₁.charge,
                saturated := r₁.saturated, pending := r₁.pending, closing := true }] ∧
            u.clu.notices = s.clu.notices ++ [⟨.recordFreed i r₁.number, s.pdu.tick⟩] ∧
            u.clu.responses = s.clu.responses ++ [⟨0x15, tag, .ok, nat2 i ++ [0, 1]⟩] ∧
            u.msu = s.msu ∧ u.dsu = s.dsu ∧ u.aru = s.aru ∧ u.lines = s.lines ∧ u.pdu.entries = s₁.pdu.entries) ∧
        ((s₁.pdu.waiters ≠ [] ∨ 64 ≤ s₁.pdu.extract.length) →
          ∃ u : State, exec (.retire tag number mode) s = .next u.afterTraffic ∧
            u.record? i = some { r₁ with state := .retiring, closing := true } ∧
            (∀ j, j ≠ i → u.record? j = s₁.record? j) ∧ u.stu.addressIndex = s.stu.addressIndex ∧
            (∀ b, chainAt u.stu.numberIndex b = if b = s.stu.numberBucket r.number
              then (chainAt s.stu.numberIndex b).erase i else chainAt s.stu.numberIndex b) ∧
            u.pdu = { s₁.pdu with
              waiters := s₁.pdu.waiters ++ [.closing i (.answer s.freshPlace (nat2 i ++ [0, 1]))] } ∧
            u.clu = { s.clu with inProgress := s.clu.inProgress ++ [⟨s.freshPlace, 0x15, tag⟩] } ∧
            u.msu = s.msu ∧ u.dsu = s.dsu ∧ u.aru = s.aru ∧ u.lines = s.lines)) ∧
      (∀ s₁, mode = 1 → r.live ≠ [] →
        (if s.retireReaches true r then s.touch false i = some s₁ else s₁ = s) →
        ∃ u : State, exec (.retire tag number mode) s = .next u.afterTraffic ∧
          (∀ n ∈ r.live, ∀ m, s.message? n = some m →
            u.message? n = (if m.place = .sending then
              some (if m.ackPending then m else { m with cancelPending := true }) else none)) ∧
          (∀ n, n ∉ r.live → u.message? n = s.message? n) ∧ u.lines = s.lines ∧ u.chu = s.chu ∧
          u.rla = s.rla ∧ u.rlb = s.rlb ∧ u.pins = s.pins) ∧
      (∀ s₁ r₁ r' gone, mode = 1 → r.live ≠ [] →
        (if s.retireReaches true r then s.touch false i = some s₁ else s₁ = s) → s₁.record? i = some r₁ →
        r.live.Nodup → (∀ n ∈ r.live, ∃ m, s.message? n = some m ∧ m.owner = i) →
        gone = r.live.filter (fun n => (s.message? n).any fun m => decide (m.place ≠ .sending)) →
        r' = gone.foldl (fun x n => match s.message? n with
          | some m => { x.settle .cancelled m s.pdu.period with live := x.live.erase n, held := x.held.erase n }
          | none => x) { r₁ with state := .retiring } →
        ∃ u : State, exec (.retire tag number mode) s = .next u.afterTraffic ∧
          u.msu.freeCount = s.msu.freeCount + gone.length ∧ (∀ j, j ≠ i → u.record? j = s₁.record? j) ∧
          (∀ b, chainAt u.stu.numberIndex b = if b = s.stu.numberBucket r.number
            then (chainAt s.stu.numberIndex b).erase i else chainAt s.stu.numberIndex b) ∧
          (gone ≠ r.live → u.record? i = some r' ∧ u.stu.addressIndex = s.stu.addressIndex ∧ u.pdu = s₁.pdu ∧
            u.clu.responses = s.clu.responses ++ [⟨0x15, tag, .ok, nat2 i ++ nat1 gone.length ++ [0]⟩]) ∧
          (gone = r.live → s₁.pdu.waiters = [] → s₁.pdu.extract.length < 64 → u.record? i = none ∧
            (∀ b, chainAt u.stu.addressIndex b = if b = s.stu.addressBucket r.address
              then (chainAt s.stu.addressIndex b).erase i else chainAt s.stu.addressIndex b) ∧
            u.pdu.extract = s₁.pdu.extract ++ [
              { number := r'.number, index := i, address := r'.address, plan := r'.plan, period := r'.periodTag,
                delivered := r'.delivered, within := r'.used, chars := r'.chars, charge := r'.charge,
                saturated := r'.saturated, pending := r'.pending, closing := true }] ∧
            u.clu.responses = s.clu.responses ++ [⟨0x15, tag, .ok, nat2 i ++ nat1 gone.length ++ [1]⟩]) ∧
          (gone = r.live → (s₁.pdu.waiters ≠ [] ∨ 64 ≤ s₁.pdu.extract.length) →
            u.record? i = some { r' with closing := true } ∧ u.stu.addressIndex = s.stu.addressIndex ∧
            u.pdu.waiters = s₁.pdu.waiters ++
              [.closing i (.answer s.freshPlace (nat2 i ++ nat1 gone.length ++ [1]))] ∧
            u.clu.responses = s.clu.responses ∧
            u.clu.inProgress = s.clu.inProgress ++ [⟨s.freshPlace, 0x15, tag⟩])))

/-! ## The message store -/

/-- READ MESSAGE: refused while the table is not READY, or for a reference that is not current; otherwise the snapshot
of the slot, and nothing changed. (That the owner's record index is always sent is the model's choice,
notes/assumptions/41.md; which other fields may be absent is its reading, notes/assumptions/29.md.) -/
def Obligations.ReadMessageSnapshot : Prop :=
  ∀ (tag : Byte) (reference : BitVec 16) (s : State), s.responseFull = false →
    (s.stu.state ≠ .ready →
      exec (.readMessage tag reference) s = .next (s.respond ⟨0x21, tag, .tableNotReady, []⟩)) ∧
    (s.stu.state = .ready → (s.message? (reference.toNat % 2048) = none ∨
        (s.slot (reference.toNat % 2048)).reuse ≠ reference.toNat / 2048) →
      exec (.readMessage tag reference) s = .next (s.respond ⟨0x21, tag, .staleReference, []⟩)) ∧
    (∀ m, s.stu.state = .ready → s.message? (reference.toNat % 2048) = some m →
      (s.slot (reference.toNat % 2048)).reuse = reference.toNat / 2048 →
      exec (.readMessage tag reference) s = .next (s.respond ⟨0x21, tag, .ok,
        nat1 m.place.code ++ nat2 m.owner ++
        (match s.record? m.owner with
          | some r => if r.state = .retiring then [0, 0, 0, 0] else 1 :: nat3 r.number
          | none => [0, 0, 0, 0]) ++
        nat1 m.tag ++ nat1 m.source.code ++ nat1 m.cls.code ++ nat1 m.kind.code ++ nat1 m.priority.code ++
        nat1 m.body.length ++ m.body ++ nat2 m.charge ++ flag1 m.allowanceUsed.isSome ++
        (match m.allowanceUsed with | some period => 1 :: nat2 period | none => [0, 0, 0]) ++
        nat1 m.attempts ++ flag1 m.aired ++ flag1 m.released ++ nat1 m.origin.code ++
        (match m.deadline with
          | some d => 1 :: bytes4 d ++ 1 :: bytes4 s.pdu.tick
          | none => [0, 0, 0, 0, 0, 0, 0, 0, 0, 0]) ++
        flag1 m.ackPending ++ flag1 m.cancelPending⟩))

/-- CANCEL: refused for a stale reference; a SENDING slot is marked, or left alone when it is acknowledged; any other
slot is settled CANCELLED, leaves its queue, the staging buffer or the timed list, and is freed, after the touch-sweep
its owner may need (`s₁`); the 65th free slot ends low water with STORE RECOVERED. The last slot of a RETIRING owner
frees the owner, or leaves the CANCEL in progress until the closing entry is written. (A slot with both marks answers
ACKNOWLEDGED, and the extra fields come with SETTLED only: the model's readings, notes/assumptions/23.md and
notes/assumptions/29.md.) -/
def Obligations.CancelActsByState : Prop :=
  ∀ (tag : Byte) (reference : BitVec 16) (s : State), s.responseFull = false →
    (s.stu.state ≠ .ready →
      exec (.cancel tag reference) s = .next (s.respond ⟨0x20, tag, .tableNotReady, []⟩).afterTraffic) ∧
    (s.stu.state = .ready → (s.message? (reference.toNat % 2048) = none ∨
        (s.slot (reference.toNat % 2048)).reuse ≠ reference.toNat / 2048) →
      exec (.cancel tag reference) s = .next (s.respond ⟨0x20, tag, .staleReference, []⟩).afterTraffic) ∧
    (∀ n m, n = reference.toNat % 2048 → s.stu.state = .ready → s.message? n = some m →
      (s.slot n).reuse = reference.toNat / 2048 →
      (m.place = .sending → m.ackPending = true →
        exec (.cancel tag reference) s = .next (s.respond ⟨0x20, tag, .ok, [2]⟩).afterTraffic) ∧
      (m.place = .sending → m.ackPending = false → exec (.cancel tag reference) s =
        .next ((s.updateMessage n fun m => { m with cancelPending := true }).respond
          ⟨0x20, tag, .ok, [1]⟩).afterTraffic) ∧
      (m.place ≠ .sending → s.touch false m.owner = none →
        exec (.cancel tag reference) s = .next (State.afterTraffic { s with
          pdu := { s.pdu with waiters := s.pdu.waiters ++ [.command s.freshPlace (.cancel reference)] }
          clu := { s.clu with inProgress := s.clu.inProgress ++ [⟨s.freshPlace, 0x20, tag⟩] } })) ∧
      (∀ s₁ r, m.place ≠ .sending → s.touch false m.owner = some s₁ → s₁.record? m.owner = some r →
        ∃ u : State, exec (.cancel tag reference) s = .next u.afterTraffic ∧
          u.message? n = none ∧ (u.slot n).reuse = (s.slot n).reuse ∧ (∀ k, k ≠ n → u.message? k = s.message? k) ∧
          u.msu.free.toList = n :: s.msu.free.toList ∧ u.msu.freeCount = s.msu.freeCount + 1 ∧
          (∀ j, j ≠ m.owner → u.record? j = s₁.record? j) ∧
          (∀ q, u.dsu.queues.get q = if m.place = .queued then (s.dsu.queues.get q).erase n
            else s.dsu.queues.get q) ∧
          u.dsu = { s.dsu with
            queues := u.dsu.queues, staging := if m.place = .staged then none else s.dsu.staging } ∧
          u.aru = { s.aru with timed := if m.deadline = none then s.aru.timed else s.aru.timed.erase n } ∧
          u.msu.lowWater = (if s.msu.freeCount = 64 then false else s.msu.lowWater) ∧
          u.lines = s.lines ∧ u.chu = s.chu ∧ u.rla = s.rla ∧ u.rlb = s.rlb ∧ u.pins = s.pins ∧
          (r.state ≠ .retiring ∨ r.live.erase n ≠ [] →
            u.record? m.owner = some { r.settle .cancelled m s.pdu.period with
              live := r.live.erase n, held := r.held.erase n } ∧
            u.clu.responses = s.clu.responses ++
              [⟨0x20, tag, .ok, 0 :: (flag1 m.aired ++ nat2 m.charge ++ nat2 m.owner)⟩] ∧
            (s.clu.notices.length < 32 → u.clu.notices = s.clu.notices ++
              if s.msu.freeCount = 64 then [⟨.storeRecovered 65, s.pdu.tick⟩] else []) ∧
            u.pdu = s₁.pdu) ∧
          (r.state = .retiring → r.live.erase n = [] →
            (s₁.pdu.waiters = [] → s₁.pdu.extract.length < 64 → u.record? m.owner = none ∧
              u.clu.responses = s.clu.responses ++
                [⟨0x20, tag, .ok, 0 :: (flag1 m.aired ++ nat2 m.charge ++ nat2 m.owner)⟩]) ∧
            ((s₁.pdu.waiters ≠ [] ∨ 64 ≤ s₁.pdu.extract.length) →
              u.record? m.owner = some { r.settle .cancelled m s.pdu.period with
                live := [], held := r.held.erase n, closing := true } ∧
              u.clu.responses = s.clu.responses ∧
              u.clu.inProgress = s.clu.inProgress ++ [⟨s.freshPlace, 0x20, tag⟩] ∧
              u.pdu.waiters = s₁.pdu.waiters ++ [.closing m.owner
                (.answer s.freshPlace (0 :: (flag1 m.aired ++ nat2 m.charge ++ nat2 m.owner)))]))))

/-- TRAFFIC RESET: refused, or marked in progress with the cursor at slot 0 and the frames in assembly discarded. The
flush walk passes a FREE or SENDING slot over and settles any other slot FLUSHED, taking it out of its queue, the
staging buffer or the timed list, after the touch-sweep its owner may need (`s₁`); the last slot of a RETIRING owner
frees the owner too; and the walk waits where the extract has no room. (Which freeings the response counts, and that
the row changes nothing with no walk to go on with, are the model's readings, notes/assumptions/26.md and
notes/assumptions/5.md.) -/
def Obligations.TrafficResetAndFlushWalk : Prop :=
  (∀ (tag : Byte) (s : State), s.responseFull = false →
    (s.stu.state ≠ .ready → exec (.trafficReset tag) s = .next (s.respond ⟨0x22, tag, .tableNotReady, []⟩)) ∧
    (s.stu.state = .ready → s.msu.flush.isSome = true →
      exec (.trafficReset tag) s = .next (s.respond ⟨0x22, tag, .resetBusy, []⟩)) ∧
    (s.stu.state = .ready → s.msu.flush = none → ∃ t : State, exec (.trafficReset tag) s = .next t ∧
      t.msu = { s.msu with flush := some ⟨s.freshPlace, 0, 0, 0⟩ } ∧
      t.clu = { s.clu with inProgress := s.clu.inProgress ++ [⟨s.freshPlace, 0x22, tag⟩] } ∧
      (∀ n : Fin 4, (s.line n).state ≠ .assembling → t.line n = s.line n) ∧
      (∀ n : Fin 4, (s.line n).state = .assembling → (t.line n).frame = none ∧ (t.line n).reply = [] ∧
        (t.line n).interTimer = none ∧
        (t.line n).state = (if (s.line n).disablePending then .disabled else .idle)) ∧
      t.stu = s.stu ∧ t.dsu = s.dsu ∧ t.chu = s.chu ∧ t.rla = s.rla ∧ t.rlb = s.rlb ∧ t.aru = s.aru ∧ t.pdu = s.pdu)) ∧
  (∀ (s : State) (f : TrafficReset), s.msu.flush = some f → f.cursor < 2048 → s.walkWaits = false →
    ((s.message? f.cursor = none ∨ (∃ m, s.message? f.cursor = some m ∧ m.place = .sending)) → exec .flushWalkStep s =
      .next (State.afterTraffic { s with msu := { s.msu with flush := some { f with cursor := f.cursor + 1 } } })) ∧
    (∀ m, s.message? f.cursor = some m → m.place ≠ .sending → s.touch false m.owner = none →
      exec .flushWalkStep s = .next (State.afterTraffic { s with
        pdu := { s.pdu with waiters := s.pdu.waiters ++ [.walk] } })) ∧
    (∀ m s₁ r, s.message? f.cursor = some m → m.place ≠ .sending → s.touch false m.owner = some s₁ →
      s₁.record? m.owner = some r →
      ∃ u : State, exec .flushWalkStep s = .next u.afterTraffic ∧ u.message? f.cursor = none ∧
        (∀ n, n ≠ f.cursor → u.message? n = s.message? n) ∧ (∀ j, j ≠ m.owner → u.record? j = s₁.record? j) ∧
        (∀ q, u.dsu.queues.get q = if m.place = .queued then (s.dsu.queues.get q).erase f.cursor
          else s.dsu.queues.get q) ∧
        u.dsu = { s.dsu with
          queues := u.dsu.queues, staging := if m.place = .staged then none else s.dsu.staging } ∧
        u.aru = { s.aru with timed := if m.deadline = none then s.aru.timed else s.aru.timed.erase f.cursor } ∧
        (r.state ≠ .retiring ∨ r.live.erase f.cursor ≠ [] →
          u.record? m.owner = some { r.settle .flushed m s.pdu.period with
            live := r.live.erase f.cursor, held := r.held.erase f.cursor } ∧
          u.msu.flush = some { f with cursor := f.cursor + 1, flushed := f.flushed + 1 } ∧ u.pdu = s₁.pdu) ∧
        (r.state = .retiring → r.live.erase f.cursor = [] →
          (s₁.pdu.waiters = [] → s₁.pdu.extract.length < 64 → u.record? m.owner = none ∧
            u.msu.flush = some { f with cursor := f.cursor + 1, flushed := f.flushed + 1, freed := f.freed + 1 }) ∧
          ((s₁.pdu.waiters ≠ [] ∨ 64 ≤ s₁.pdu.extract.length) →
            u.msu.flush = some { f with flushed := f.flushed + 1 } ∧
            u.pdu.waiters = s₁.pdu.waiters ++ [.closing m.owner .walk])))) ∧
  (∀ s : State, (s.msu.flush = none ∨ (∃ f, s.msu.flush = some f ∧ 2048 ≤ f.cursor) ∨ s.walkWaits = true) →
    exec .flushWalkStep s = .next s)

/-- The sequence tag chosen for a live list of at most 16 tags is the first, counting up from the next tag and
wrapping from 127 to 0, that the list does not carry. -/
def Obligations.TagChoice : Prop :=
  ∀ (used : List Nat) (start : Nat), used.length ≤ 16 → start < 128 →
    ∃ k ≤ 16, chooseTag used 17 start = (start + k) % 128 ∧ (start + k) % 128 ∉ used ∧
      ∀ j < k, (start + j) % 128 ∈ used

/-! ## Tariffs, charges and credit -/

/-- SET TARIFF clamps each value into its range and answers the values as written with one clamped bit per value; a
selector that names none of the four is refused. READ TARIFF answers the whole tariff and changes nothing. (The
positions of the clamped bits are the model's reading, notes/assumptions/29.md, and the class rows without a count byte
its choice, notes/assumptions/41.md.) -/
def Obligations.TariffCommands : Prop :=
  ∀ (tag : Byte) (s : State), s.responseFull = false →
    (∀ (base rate : BitVec 16) (free : Byte) (row : TariffRow) (reply : List Byte),
      row = ⟨base.toNat, min free.toNat 80, min rate.toNat 4095⟩ →
      reply = bytes2 base ++ nat1 (min free.toNat 80) ++ nat2 (min rate.toNat 4095) ++
        [(if 80 < free.toNat then 2#8 else 0#8) ||| (if 4095 < rate.toNat then 4#8 else 0#8)] →
      exec (.setTariff tag (.tone base free rate)) s =
        .next (State.respond { s with chu := { s.chu with tone := row } } ⟨0x30, tag, .ok, reply⟩) ∧
      exec (.setTariff tag (.numeric base free rate)) s =
        .next (State.respond { s with chu := { s.chu with numeric := row } } ⟨0x30, tag, .ok, reply⟩) ∧
      exec (.setTariff tag (.alpha base free rate)) s =
        .next (State.respond { s with chu := { s.chu with alpha := row } } ⟨0x30, tag, .ok, reply⟩)) ∧
    (∀ mu md : Byte, exec (.setTariff tag (.multipliers mu md)) s =
      .next (State.respond { s with chu := { s.chu with mu := max 8 (min mu.toNat 32), md := min md.toNat 8 } }
        ⟨0x30, tag, .ok, nat1 (max 8 (min mu.toNat 32)) ++ nat1 (min md.toNat 8) ++
          [(if mu.toNat < 8 ∨ 32 < mu.toNat then 1#8 else 0#8) ||| (if 8 < md.toNat then 2#8 else 0#8)]⟩)) ∧
    (∀ selector rest, exec (.setTariff tag (.other selector rest)) s =
      .next (s.respond ⟨0x30, tag, .badField, []⟩)) ∧
    exec (.readTariff tag) s = .next (s.respond ⟨0x31, tag, .ok,
      nat2 s.chu.tone.base ++ nat1 s.chu.tone.free ++ nat2 s.chu.tone.rate ++
      nat2 s.chu.numeric.base ++ nat1 s.chu.numeric.free ++ nat2 s.chu.numeric.rate ++
      nat2 s.chu.alpha.base ++ nat1 s.chu.alpha.free ++ nat2 s.chu.alpha.rate ++ nat1 s.chu.mu ++ nat1 s.chu.md⟩)

/-- The charge: the character part is the excess times the rate in sixteenths rounded up to a whole unit, the base
charge is waived within allowance, the multipliers work in eighths and round half up, and the charge is capped. The
credit check of a charge: a PREPAID record passes when the balance less pending is at least the charge, an ACCOUNT
record when its ceiling is 0 or the period charge plus pending plus the charge is at most the ceiling; and what a
failure is called and the available figure it carries. -/
def Obligations.PricingAndCredit : Prop :=
  ((∀ (t : TariffRow) (n : Nat), 16 * t.characterPart n < (n - t.free) * t.rate + 16 ∧
     (n - t.free) * t.rate ≤ 16 * t.characterPart n) ∧
   (∀ (t : TariffRow) (n : Nat), t.subtotal n true = t.characterPart n ∧
     t.subtotal n false = t.base + t.characterPart n) ∧
   (∀ (c : Chu) (sub : Nat), c.prioritise .normal sub = sub ∧
     8 * c.prioritise .urgent sub ≤ sub * c.mu + 4 ∧ sub * c.mu + 4 < 8 * c.prioritise .urgent sub + 8 ∧
     8 * c.prioritise .deferred sub ≤ sub * c.md + 4 ∧ sub * c.md + 4 < 8 * c.prioritise .deferred sub + 8) ∧
   (∀ (c : Chu) (cls : ServiceClass) (n : Nat) (p : Priority) (within : Bool),
     c.price cls n p within = min (c.prioritise p ((c.row cls).subtotal n within)) 65535) ∧
   (∀ (c : Chu) (r : Record) (n : Nat) (p : Priority),
     c.priceFor r n p = c.price r.cls n p (decide (r.used < r.allowance)))) ∧
  (∀ (r : Record) (c : Nat),
     (∀ balance, r.plan = .prepaid balance →
       (r.pending ≤ balance → (r.creditPasses c = true ↔ c ≤ balance - r.pending)) ∧
       r.creditRefusal = .noCredit ∧ r.available = balance - r.pending) ∧
     (∀ ceiling, r.plan = .account ceiling →
       (r.creditPasses c = true ↔ (ceiling = 0 ∨ r.charge + r.pending + c ≤ ceiling)) ∧
       r.creditRefusal = .overCeiling ∧
       r.available = (if ceiling < r.charge + r.pending then 0 else ceiling - (r.charge + r.pending))))

/-- The settlement table: what each outcome does to the owner's counters. -/
def Obligations.SettlementTable : Prop :=
  ∀ (r : Record) (m : Message) (period : Nat),
    (∀ e, (e = .delivered ∨ (e = .cancelled ∧ m.aired = true)) →
      (r.settle e m period).pending = r.pending - m.charge ∧
      (∀ balance, r.plan = .prepaid balance → (r.settle e m period).plan = .prepaid (balance - m.charge)) ∧
      (∀ ceiling, r.plan = .account ceiling → (r.settle e m period).plan = r.plan) ∧
      (r.charge + m.charge ≤ 16777215 → (r.settle e m period).charge = r.charge + m.charge ∧
        (r.settle e m period).saturated = r.saturated) ∧
      (16777215 < r.charge + m.charge → (r.settle e m period).charge = 16777215 ∧
        (r.settle e m period).saturated = true) ∧
      (r.settle e m period).used = r.used) ∧
    (r.settle .delivered m period).delivered = min (r.delivered + 1) 65535 ∧
    (r.settle .delivered m period).chars = min (r.chars + m.body.length) 16777215 ∧
    (m.aired = true → (r.settle .cancelled m period).delivered = r.delivered ∧
      (r.settle .cancelled m period).chars = r.chars) ∧
    (∀ e, (e = .abandoned ∨ e = .flushed ∨ (e = .cancelled ∧ m.aired = false)) →
      r.settle e m period = { r with
        pending := r.pending - m.charge
        used := if m.allowanceUsed = some period then r.used - 1 else r.used }) ∧
    (∀ e, ∃ r' : Record, r' = r.settle e m period ∧ r'.state = r.state ∧ r'.number = r.number ∧
      r'.address = r.address ∧ r'.cls = r.cls ∧ r'.kind = r.kind ∧ r'.zones = r.zones ∧ r'.presence = r.presence ∧
      r'.allowance = r.allowance ∧ r'.periodTag = r.periodTag ∧ r'.live = r.live ∧ r'.held = r.held ∧
      r'.nextTag = r.nextTag ∧ r'.closing = r.closing)

/-- ADJUST BALANCE: refused with the result of the first check that fails; otherwise the new balance is the sum
brought within pending and 16,777,215, after the touch-sweep the record may need (`s₁`), and without room for its
entry the command waits with nothing done. -/
def Obligations.AdjustBalanceClamps : Prop :=
  ∀ (tag : Byte) (number : BitVec 24) (amount : BitVec 32) (s : State), s.responseFull = false →
    (s.stu.state ≠ .ready →
      exec (.adjustBalance tag number amount) s = .next (s.respond ⟨0x32, tag, .tableNotReady, []⟩)) ∧
    (s.stu.state = .ready → (number.toNat = 0 ∨ 9999999 < number.toNat ∨ amount.toInt < -16777215 ∨
        16777215 < amount.toInt) →
      exec (.adjustBalance tag number amount) s = .next (s.respond ⟨0x32, tag, .badField, []⟩)) ∧
    (s.stu.state = .ready → 1 ≤ number.toNat → number.toNat ≤ 9999999 → -16777215 ≤ amount.toInt →
      amount.toInt ≤ 16777215 →
      (s.findNumber number.toNat = none →
        exec (.adjustBalance tag number amount) s = .next (s.respond ⟨0x32, tag, .unknownSubscriber, []⟩)) ∧
      (∀ i r, s.findNumber number.toNat = some i → s.record? i = some r →
        (∀ ceiling, r.plan = .account ceiling →
          exec (.adjustBalance tag number amount) s = .next (s.respond ⟨0x32, tag, .wrongPlan, []⟩)) ∧
        (∀ balance, r.plan = .prepaid balance →
          (s.touch false i = none → exec (.adjustBalance tag number amount) s = .next { s with
            pdu := { s.pdu with waiters := s.pdu.waiters ++ [.command s.freshPlace (.adjust number amount)] }
            clu := { s.clu with inProgress := s.clu.inProgress ++ [⟨s.freshPlace, 0x32, tag⟩] } }) ∧
          (∀ s₁ r₁ (new : Nat), s.touch false i = some s₁ → s₁.record? i = some r₁ →
            (new : Int) = (if (balance : Int) + amount.toInt < r.pending then (r.pending : Int)
              else if 16777215 < (balance : Int) + amount.toInt then 16777215 else (balance : Int) + amount.toInt) →
            r.pending ≤ 16777215 →
            exec (.adjustBalance tag number amount) s = .next (State.respond
              { s₁ with stu := { s₁.stu with records := s₁.stu.records.put i { r₁ with plan := .prepaid new } } }
              ⟨0x32, tag, .ok, nat2 i ++ bytes4 (BitVec.ofInt 32 ((new : Int) - balance)) ++ nat3 new ++
                nat3 r.pending⟩)))))

/-! ## The intake lines -/

/-- SET LINE: refused by its ranges, then while the line is not DISABLED; otherwise the settings replace the line's,
the station list empty in DIRECT mode, and the response carries OK. (That the reply wait is tested in DIRECT mode too
and the stations are not is the model's reading, notes/assumptions/20.md.) -/
def Obligations.SetLineSettings : Prop :=
  ∀ (tag : Byte) (a : LineArgs) (s : State), s.responseFull = false →
    ((4 ≤ a.line.toNat ∨ 1 < a.mode.toNat ∨ 2 < a.parity.toNat ∨ 4095 < a.n.toNat ∨ 1 < a.e.toNat ∨
        a.stop.toNat = 0 ∨ 2 < a.stop.toNat ∨ a.wait.toNat < 2 ∨ 25 < a.wait.toNat ∨
        (a.mode = 1 ∧ (a.stations = [] ∨ 8 < a.stations.length ∨ (∃ x ∈ a.stations, x = 0 ∨ 31 < x.toNat) ∨
          ¬ a.stations.Nodup))) →
      exec (.setLine tag a) s = .next (s.respond ⟨0x40, tag, .badField, []⟩)) ∧
    (∀ (n : Fin 4) (p : Parity), a.line.toNat = n.val → parityOf a.parity = some p → a.n.toNat ≤ 4095 →
      a.e.toNat ≤ 1 → (a.stop = 1 ∨ a.stop = 2) → 2 ≤ a.wait.toNat → a.wait.toNat ≤ 25 →
      (a.mode = 0 ∨ (a.mode = 1 ∧ a.stations ≠ [] ∧ a.stations.length ≤ 8 ∧
        (∀ x ∈ a.stations, 1 ≤ x.toNat ∧ x.toNat ≤ 31) ∧ a.stations.Nodup)) →
      ((s.line n).state ≠ .disabled →
        exec (.setLine tag a) s = .next (s.respond ⟨0x40, tag, .lineActive, []⟩)) ∧
      ((s.line n).state = .disabled → a.mode = 0 → exec (.setLine tag a) s =
        .next ((s.putLine n { s.line n with
          mode := .direct, n := a.n.toNat, e := a.e.toNat, parity := p, stop := a.stop.toNat, stations := [],
          current := 0 }).respond ⟨0x40, tag, .ok, []⟩)) ∧
      ((s.line n).state = .disabled → a.mode = 1 → exec (.setLine tag a) s =
        .next ((s.putLine n { s.line n with
          mode := .polled, n := a.n.toNat, e := a.e.toNat, parity := p, stop := a.stop.toNat,
          stations := a.stations.map (fun x => x.toNat), wait := a.wait.toNat,
          current := 0 }).respond ⟨0x40, tag, .ok, []⟩)))

/-- ENABLE LINE, DISABLE LINE and LINE STATUS: enabling makes a DISABLED line IDLE with its FIFO empty and polls the
first station of a POLLED one, and on any other line clears the disable-pending mark; disabling acts at once on an
IDLE or DOWN line and by that mark on a busy one; the status of the line changes nothing. (The layout of LINE STATUS
where R189 leaves room is the model's reading, notes/assumptions/29.md, and what becomes of polls that wait for TXD is
notes/assumptions/27.md.) -/
def Obligations.LineEnableDisableStatus : Prop :=
  ∀ (tag line : Byte) (s : State), s.responseFull = false →
    (4 ≤ line.toNat →
      exec (.enableLine tag line) s = .next (s.respond ⟨0x41, tag, .badField, []⟩) ∧
      exec (.disableLine tag line) s = .next (s.respond ⟨0x42, tag, .badField, []⟩) ∧
      exec (.lineStatus tag line) s = .next (s.respond ⟨0x43, tag, .badField, []⟩)) ∧
    (∀ (n : Fin 4) (l : Line), line.toNat = n.val → l = s.line n →
      (n = 3 → s.rlb.state ≠ .disabled →
        exec (.enableLine tag line) s = .next (s.respond ⟨0x41, tag, .pinsInUse, []⟩)) ∧
      ((n ≠ 3 ∨ s.rlb.state = .disabled) →
        (l.state = .disabled → exec (.enableLine tag line) s = .next ((s.putLine n { l with
          state := .idle, breakRun := 0, fifo := [], current := 0,
          polls := if l.mode = .polled then l.polls ++ [l.stations.getD 0 0] else l.polls }).respond
            ⟨0x41, tag, .ok, [1]⟩)) ∧
        (l.state ≠ .disabled → exec (.enableLine tag line) s =
          .next ((s.putLine n { l with disablePending := false }).respond ⟨0x41, tag, .ok, nat1 l.state.code⟩))) ∧
      (l.state = .disabled → exec (.disableLine tag line) s = .next (s.respond ⟨0x42, tag, .ok, [0]⟩)) ∧
      ((l.state = .idle ∨ l.state = .down) → exec (.disableLine tag line) s = .next ((s.putLine n { l with
          state := .disabled, fifo := [], frame := none, request := none, interTimer := none, stationTimer := none,
          reply := [], polls := l.polls.take 1, disablePending := false }).respond ⟨0x42, tag, .ok, [0]⟩)) ∧
      ((l.state = .assembling ∨ l.state = .awaitingAcceptance ∨ l.state = .replying) →
        exec (.disableLine tag line) s =
          .next ((s.putLine n { l with disablePending := true }).respond ⟨0x42, tag, .ok, [1]⟩)) ∧
      exec (.lineStatus tag line) s = .next (s.respond ⟨0x43, tag, .ok,
        nat1 l.state.code ++ flag1 l.disablePending ++ nat1 l.fifo.length ++ nat1 l.mode.code ++ nat2 l.n ++
        nat1 l.e ++ nat1 l.parity.code ++ nat1 l.stop ++ nat1 l.wait ++ nat1 l.stations.length ++
        l.stations.flatMap nat1 ++ (if l.mode = .polled then 1 :: nat1 (l.stations.getD l.current 0) else [0, 0]) ++
        (if n = 3 then flag1 (decide (s.rlb.state ≠ .disabled)) else [])⟩))

/-- INTAKE_CHARACTER_RECEIVED: nothing enters a DISABLED line; a DOWN line discards bad characters and returns to IDLE
on a good one; on any other line the character enters the FIFO, or sets the gap mark of the newest one when the FIFO
is full, and the third break in a row withdraws a waiting acceptance and puts the line DOWN. What the row carries is read
from the levels on RXD: a start bit, the data bits least significant first, the mark bit in POLLED mode, the parity bit
unless NONE and the first stop bit; a character in the form the line itself sends is good unless its mark bit is set. (That
a line that is DOWN keeps its break run at 0 is the model's reading, notes/assumptions/32.md; that a bit the format does
not have is given as clear is its choice, notes/assumptions/37.md.) -/
def Obligations.CharacterReception : Prop :=
  (∀ (l : Line) (bits : List Bool), l.sampled (true :: bits) = none) ∧
  (∀ (l : Line) (data : Byte) (mark parity stop : Bool) (rest : List Bool),
    l.sampled (false :: ((List.range 8).map (fun i => data.getLsbD i) ++ (if l.mode = .polled then [mark] else []) ++
        (if l.parity = .none then [] else [parity]) ++ stop :: rest)) =
      some ⟨data, decide (l.mode = .polled) && mark, decide (l.parity ≠ .none) && parity, stop⟩) ∧
  (∀ (l : Line) (data : Byte) (mark : Bool) (rest : List Bool), 1 ≤ l.stop → ∃ x : Sampled,
    l.sampled (l.characterBits data mark ++ rest) = some x ∧ x.data = data ∧
    l.badCharacter x.data x.mark x.parity x.stop = (decide (l.mode = .polled) && mark)) ∧
  (∀ (n : Fin 4) (data : Byte) (mark parity stop : Bool) (s : State) (l : Line) (bad : Bool) (run : Nat), l = s.line n →
    bad = (!stop || parityError l.parity data (if l.mode = .polled then some mark else none) parity ||
      (decide (l.mode = .polled) && mark)) →
    run = (if stop = false ∧ data = 0 then l.breakRun + 1 else 0) →
    (l.state = .disabled → exec (.intakeCharacterReceived n data mark parity stop) s = .next s) ∧
    (l.state = .down → bad = true → exec (.intakeCharacterReceived n data mark parity stop) s = .next s) ∧
    (l.state = .down → bad = false → exec (.intakeCharacterReceived n data mark parity stop) s =
      .next ((s.putLine n (Line.moveOn { l with
        state := .idle, fifo := [⟨data, false, false⟩], breakRun := 0 })).raise (.lineUp n))) ∧
    (l.state ≠ .disabled → l.state ≠ .down → run < 3 →
      (l.fifo.length < 16 → exec (.intakeCharacterReceived n data mark parity stop) s =
        .next (s.putLine n { l with fifo := l.fifo ++ [⟨data, bad, false⟩], breakRun := run })) ∧
      (∀ front last, l.fifo = front ++ [last] → 16 ≤ l.fifo.length →
        exec (.intakeCharacterReceived n data mark parity stop) s =
          .next (s.putLine n { l with fifo := front ++ [{ last with gap := true }], breakRun := run }))) ∧
    (l.state ≠ .disabled → l.state ≠ .down → 3 ≤ run →
      ∃ t : State, exec (.intakeCharacterReceived n data mark parity stop) s = .next t ∧
        t.pdu.waiters = s.pdu.waiters.erase (.line n) ∧ t.pdu.extract = s.pdu.extract ∧
        (∀ k, k ≠ n → t.line k = s.line k) ∧
        (l.disablePending = false → (t.line n).state = .down ∧
          t.clu = (s.raise (.lineDown n)).clu) ∧
        (l.disablePending = true → (t.line n).state = .disabled ∧ t.clu = s.clu) ∧
        (t.line n).fifo = [] ∧ (t.line n).frame = none ∧ (t.line n).request = none ∧ (t.line n).reply = [] ∧
        (t.line n).interTimer = none ∧ (t.line n).stationTimer = none ∧ (t.line n).breakRun = 0 ∧
        (t.line n).disablePending = false ∧ (t.line n).rdy = !l.disablePending ∧
        t.stu = s.stu ∧ t.msu = s.msu ∧ t.chu = s.chu ∧ t.dsu = s.dsu ∧ t.rla = s.rla ∧ t.rlb = s.rlb ∧ t.aru = s.aru))

/-- CHARACTER_TAKEN: the head of the FIFO is taken by the line's state. While IDLE only a good lead, or on a POLLED
line a good 0x05, does anything; while ASSEMBLING the character is placed and summed, begins a new frame, ends the
frame, or makes it overlong; a gap mark spoils the frame that is in assembly after it. A frame makes a submission
exactly when it is not malformed: the kind 'P', seven digit characters, one of the three priority characters and a
body of at most 80 characters; the number is the one its digits write. (The order of the 97th-character test beside a
new lead and a check character is the model's reading, notes/assumptions/14.md; that the row changes nothing in other
states is notes/assumptions/5.md.) -/
def Obligations.FrameAssembly : Prop :=
  (∀ (n : Fin 4) (s : State) (l : Line) (c : RxChar) (rest : List RxChar), (s.line n).fifo = c :: rest →
     l = { s.line n with fifo := rest } →
     (l.state ≠ .idle → l.state ≠ .assembling → exec (.characterTaken n) s = .next s) ∧
     (l.state = .idle →
       (c.data = 0x01 → c.bad = false → exec (.characterTaken n) s = .next (s.putLine n { l with
         state := .assembling, frame := some ⟨[], 1, 0, c.gap, false⟩, interTimer := some 0, stationTimer := none })) ∧
       (c.data = 0x05 → c.bad = false → exec (.characterTaken n) s = .next (s.putLine n l.moveOn)) ∧
       ((c.bad = true ∨ (c.data ≠ 0x01 ∧ c.data ≠ 0x05)) → exec (.characterTaken n) s = .next (s.putLine n l))) ∧
     (∀ f, l.state = .assembling → l.frame = some f →
       (f.terminated = false → c.data = 0x01 → c.bad = false →
         exec (.characterTaken n) s = .next (s.putLine n { l with
           frame := some ⟨[], 1, 0, c.gap, false⟩, interTimer := some 0, stationTimer := none })) ∧
       (f.terminated = false → c.data = 0x04 → c.bad = false →
         exec (.characterTaken n) s = .next (s.putLine n { l with
           frame := some { f with
             count := f.count + 1, sum := (f.sum + 4) % 128, spoiled := f.spoiled || c.gap, terminated := true }
           interTimer := some 0 })) ∧
       (f.terminated = false → (c.bad = true ∨ (c.data ≠ 0x01 ∧ c.data ≠ 0x04)) →
         (f.count < 96 → exec (.characterTaken n) s = .next (s.putLine n { l with
           frame := some { f with
             chars := f.chars ++ [c.data], count := f.count + 1, sum := (f.sum + c.data.toNat) % 128,
             spoiled := f.spoiled || c.bad || c.gap }
           interTimer := some 0 })) ∧
         (96 ≤ f.count → exec (.characterTaken n) s = .next (s.putLine n { l with
           state := .replying, frame := none, request := none, interTimer := none, reply := [0x15, 0x45, 0x04] }))) ∧
       (f.terminated = true →
         (∀ sub, f.submission = some sub → f.spoiled = false → c.bad = false → c.data.toNat = f.sum →
           exec (.characterTaken n) s = .next (s.putLine n { l with
             state := .awaitingAcceptance, frame := none, interTimer := none, reply := [], request := some sub })) ∧
         ((f.submission = none ∨ f.spoiled = true ∨ c.bad = true ∨ c.data.toNat ≠ f.sum) →
           exec (.characterTaken n) s = .next (s.putLine n { l with
             state := .replying, frame := none, request := none, interTimer := none, reply := [0x15, 0x45, 0x04] }))))) ∧
  ((∀ (f : Frame) (d : List Byte) (p : Byte) (pr : Priority) (body : List Byte), d.length = 7 →
     (∀ x ∈ d, 0x30 ≤ x.toNat ∧ x.toNat ≤ 0x39) → body.length ≤ 80 → f.chars = 0x50 :: (d ++ p :: body) →
     ((p = 0x55 ∧ pr = .urgent) ∨ (p = 0x4E ∧ pr = .normal) ∨ (p = 0x44 ∧ pr = .deferred)) →
     f.submission = some ⟨d.foldl (fun acc x => acc * 10 + (x.toNat - 0x30)) 0, pr, body⟩) ∧
   (∀ f : Frame, (f.chars.head? ≠ some 0x50 ∨ f.chars.length < 9 ∨ 89 < f.chars.length ∨
       (∃ x ∈ (f.chars.drop 1).take 7, x.toNat < 0x30 ∨ 0x39 < x.toNat) ∨
       (∃ p, f.chars[8]? = some p ∧ p ≠ 0x55 ∧ p ≠ 0x4E ∧ p ≠ 0x44)) → f.submission = none))

/-- The timers, the polls and the end of a reply: a frame whose 50 ticks have passed is discarded without a reply, a
sent poll starts the station wait, a station whose wait has passed is left for the next, and the last reply character
returns the line to IDLE (moving a POLLED line on) or to DISABLED with the disable-pending mark. (The counting of the
timers and the polls that wait for TXD are the model's readings, notes/assumptions/10.md and notes/assumptions/27.md;
that a row given before its count or in another state changes nothing is notes/assumptions/5.md.) -/
def Obligations.LineTimersAndReplies : Prop :=
  ∀ (n : Fin 4) (s : State) (l ended : Line), l = s.line n →
    ended = (if l.disablePending then { l with
        state := .disabled, fifo := [], frame := none, request := none, interTimer := none, stationTimer := none,
        reply := [], polls := l.polls.take 1, disablePending := false }
      else Line.moveOn { l with state := .idle, frame := none, request := none, interTimer := none, reply := [] }) →
    (∀ k, l.state = .assembling → l.interTimer = some k →
      (50 ≤ k → exec (.interCharacterTimerExpiry n) s = .next (s.putLine n ended)) ∧
      (k < 50 → exec (.interCharacterTimerExpiry n) s = .next s)) ∧
    (l.state ≠ .assembling → exec (.interCharacterTimerExpiry n) s = .next s) ∧
    (l.state = .replying → exec (.replyComplete n) s = .next (s.putLine n ended)) ∧
    (l.state ≠ .replying → exec (.replyComplete n) s = .next s) ∧
    (∀ p, l.polls = [p] → l.state = .idle → l.mode = .polled →
      exec (.pollSent n) s = .next (s.putLine n { l with polls := [], stationTimer := some 0 })) ∧
    (∀ p rest, l.polls = p :: rest → (rest ≠ [] ∨ l.state ≠ .idle ∨ l.mode ≠ .polled) →
      exec (.pollSent n) s = .next (s.putLine n { l with polls := rest })) ∧
    (∀ k, l.state = .idle → l.mode = .polled → l.stationTimer = some k →
      (l.wait ≤ k → exec (.stationWaitExpiry n) s = .next (s.putLine n { l with
        stationTimer := none, current := (l.current + 1) % l.stations.length,
        polls := l.polls ++ [l.stations.getD ((l.current + 1) % l.stations.length) 0] })) ∧
      (k < l.wait → exec (.stationWaitExpiry n) s = .next s)) ∧
    (l.stationTimer = none → exec (.stationWaitExpiry n) s = .next s)

/-! ## Acceptance -/

/-- The seven checks of an acceptance in their order, and which bodies are valid for a class; the page is priced on
the record as the touch-sweep it needs would leave it. -/
def Obligations.AcceptanceChecks : Prop :=
  (∀ (s : State) (sub : Submission),
    ((s.msu.flush.isSome = true ∨ s.stu.state ≠ .ready) → s.judge sub = .fail .serviceClosed []) ∧
    (s.msu.flush = none → s.stu.state = .ready →
      (s.findNumber sub.number = none → s.judge sub = .fail .unknownSubscriber []) ∧
      (∀ i r, s.findNumber sub.number = some i → s.record? i = some r →
        (r.state ≠ .active → s.judge sub = .fail .notInService []) ∧
        (r.state = .active → bodyValid r.cls sub.body = false → s.judge sub = .fail .bodyInvalid []) ∧
        (r.state = .active → bodyValid r.cls sub.body = true → 16 ≤ r.live.length →
          s.judge sub = .fail .subscriberFull []) ∧
        (r.state = .active → bodyValid r.cls sub.body = true → r.live.length < 16 →
          (s.msu.freeCount = 0 ∨ (s.msu.freeCount ≤ 64 ∧ sub.priority ≠ .urgent)) →
          s.judge sub = .fail .storeFull []) ∧
        (∀ t c, r.state = .active → bodyValid r.cls sub.body = true → r.live.length < 16 →
          0 < s.msu.freeCount → (64 < s.msu.freeCount ∨ sub.priority = .urgent) →
          t = (if s.pdu.sweep ≠ .idle ∧ r.periodTag ≠ s.pdu.period then { r with
            used := 0, delivered := 0, chars := 0, charge := 0, saturated := false, periodTag := s.pdu.period } else r) →
          c = s.chu.priceFor t sub.body.length sub.priority →
          (t.creditPasses c = true → s.judge sub = .pass i c) ∧
          (t.creditPasses c = false → s.judge sub = .fail t.creditRefusal (nat2 c ++ nat3 t.available)))))) ∧
  (∀ body : List Byte,
    (bodyValid .tone body = true ↔ body = []) ∧
    (bodyValid .numeric body = true ↔ body.length ≤ 24 ∧
      ∀ x ∈ body, (0x30 ≤ x.toNat ∧ x.toNat ≤ 0x39) ∨ x = 0x20 ∨ x = 0x2D ∨ x = 0x2E) ∧
    (bodyValid .alpha body = true ↔ body.length ≤ 80 ∧ ∀ x ∈ body, 0x20 ≤ x.toNat ∧ x.toNat ≤ 0x7E))

/-- An acceptance: refused with nothing done, waiting with nothing done, or made in its one event after the
touch-sweep it may need (`s₁`): the head slot of the free list with its reuse count advanced, the message with its tag
and its reservation, and its place at the tail of the queue of its priority or, for a TWO-WAY record that is AWAY, in
the held list and, by its deadline, in the timed list, the oldest of four held slots then settled ABANDONED. The
allocation that leaves 64 free slots begins low water with STORE LOW. -/
def Obligations.AcceptanceEffect : Prop :=
  ∀ (s : State) (w : Waiter) (src : Source) (sub : Submission),
    (∀ why figures, s.judge sub = .fail why figures → s.accept false w src sub = (s, .refused why figures)) ∧
    (∀ i c, s.judge sub = .pass i c → s.touch false i = none →
      s.accept false w src sub =
        ({ s with pdu := { s.pdu with waiters := s.pdu.waiters ++ [w] } }, .waits)) ∧
    (∀ i c s₁ r n free tag reuse held, s.judge sub = .pass i c → s.touch false i = some s₁ → s₁.record? i = some r →
      s.msu.free.take = some (n, free) → (∀ q, n ∉ s.dsu.queues.get q) → n ∉ r.held →
      (∀ k ∈ r.held, ∀ m, s.message? k = some m → m.owner = i) →
      tag = chooseTag (s.liveTags r) 17 r.nextTag → reuse = ((s.slot n).reuse + 1) % 32 →
      held = (r.kind == .twoWay && r.presence == .away) →
      ∃ t : State, s.accept false w src sub = (t, .made n i c held) ∧
        (t.slot n).reuse = reuse ∧
        (∃ place, t.message? n = some
          { place, owner := i, tag, source := src, cls := r.cls, kind := r.kind, priority := sub.priority,
            body := sub.body, charge := c, allowanceUsed := if r.used < r.allowance then some s.pdu.period else none,
            attempts := 0, aired := false, released := false, origin := sub.priority.queue, ackPending := false,
            cancelPending := false } ∧
          place = (if held then .held (s.pdu.tick + BitVec.ofNat 32 (s.aru.hold * 600)) else .queued)) ∧
        (∀ j, j ≠ i → t.record? j = s₁.record? j) ∧
        t.pdu = s₁.pdu ∧ t.lines = s.lines ∧ t.chu = s.chu ∧ t.rla = s.rla ∧ t.rlb = s.rlb ∧ t.pins = s.pins ∧
        t.stu.numberIndex = s.stu.numberIndex ∧ t.stu.addressIndex = s.stu.addressIndex ∧ t.stu.free = s.stu.free ∧
        (held = false →
          t.record? i = some { r with
            pending := r.pending + c
            used := if r.used < r.allowance then r.used + 1 else r.used
            live := r.live ++ [n]
            nextTag := (tag + 1) % 128 } ∧
          (∀ k, k ≠ n → t.message? k = s.message? k) ∧
          t.msu.free = free ∧ t.msu.freeCount = s.msu.freeCount - 1 ∧
          t.dsu = { s.dsu with
            queues := s.dsu.queues.set sub.priority.queue (s.dsu.queues.get sub.priority.queue ++ [n]) } ∧
          t.aru = s.aru) ∧
        (held = true → r.held.length < 4 →
          t.record? i = some { r with
            pending := r.pending + c
            used := if r.used < r.allowance then r.used + 1 else r.used
            live := r.live ++ [n]
            held := r.held ++ [n]
            nextTag := (tag + 1) % 128 } ∧
          (∀ k, k ≠ n → t.message? k = s.message? k) ∧
          t.msu.free = free ∧ t.msu.freeCount = s.msu.freeCount - 1 ∧ t.dsu = s.dsu ∧
          (n ∉ s.aru.timed → joinsInOrder s.deadlineOf n (s.pdu.tick + BitVec.ofNat 32 (s.aru.hold * 600)) s.aru.timed
            t.aru.timed)) ∧
        (held = false ∨ r.held.length < 4 →
          t.msu.lowWater = (if s.msu.freeCount = 65 then true else s.msu.lowWater) ∧
          (s.clu.notices.length < 32 → t.clu.notices = s.clu.notices ++
            if s.msu.freeCount = 65 then [⟨.storeLow 64, s.pdu.tick⟩] else [])) ∧
        (∀ oldest rest m, held = true → r.held = oldest :: rest → rest.length = 3 → s.message? oldest = some m →
          t.message? oldest = none ∧
          (∀ used, used = (if r.used < r.allowance then r.used + 1 else r.used) → t.record? i = some { r with
            pending := r.pending + c - m.charge
            used := if m.allowanceUsed = some s.pdu.period then used - 1 else used
            live := (r.live ++ [n]).erase oldest
            held := rest ++ [n]
            nextTag := (tag + 1) % 128 }) ∧
          (∀ k, k ≠ n → k ≠ oldest → t.message? k = s.message? k) ∧
          t.msu.free.toList = oldest :: free.toList ∧ t.msu.freeCount = s.msu.freeCount ∧
          t.msu.lowWater = (if s.msu.freeCount = 65 then false else s.msu.lowWater) ∧
          (s.clu.notices.length < 31 → t.clu.notices = s.clu.notices ++
            if s.msu.freeCount = 65 then [⟨.storeLow 64, s.pdu.tick⟩, ⟨.storeRecovered 65, s.pdu.tick⟩] else []) ∧
          (∀ d, m.place = .held d → s.aru.timed.Nodup → n ∉ s.aru.timed → t.dsu = s.dsu ∧
            joinsInOrder s.deadlineOf n (s.pdu.tick + BitVec.ofNat 32 (s.aru.hold * 600)) (s.aru.timed.erase oldest)
              t.aru.timed)))

/-- ACCEPTANCE and SUBMIT: the acceptance of a line's request ends in a reply, 0x06 with the reference in five digits
or 0x15 with the refusal's letter, or in waiting; the characters of the reply are sent with the mark bit clear on a
POLLED line; that of a SUBMIT ends in a response, or in waiting with the command in progress. (That ACCEPTANCE changes
nothing when no acceptance is due is the model's reading, notes/assumptions/5.md.) -/
def Obligations.AcceptanceReplies : Prop :=
  (∀ (n : Fin 4) (s : State),
    ((s.line n).state ≠ .awaitingAcceptance ∨ Waiter.line n ∈ s.pdu.waiters → exec (.acceptance n) s = .next s) ∧
    (∀ sub, (s.line n).state = .awaitingAcceptance → Waiter.line n ∉ s.pdu.waiters → (s.line n).request = some sub →
      (∀ t why figures, s.accept false (.line n) (.line n) sub = (t, .refused why figures) →
        exec (.acceptance n) s = .next (t.putLine n { t.line n with
          state := .replying, frame := none, request := none, interTimer := none,
          reply := [0x15, refusalLetter why, 0x04] }).afterTraffic) ∧
      (∀ t, s.accept false (.line n) (.line n) sub = (t, .waits) → exec (.acceptance n) s = .next t.afterTraffic) ∧
      (∀ t slot i c held, s.accept false (.line n) (.line n) sub = (t, .made slot i c held) →
        exec (.acceptance n) s = .next (t.putLine n { t.line n with
          state := .replying, frame := none, request := none, interTimer := none,
          reply := 0x06 :: (digits5 ((t.slot slot).reuse * 2048 + slot) ++ [0x04]) }).afterTraffic))) ∧
  (∀ (tag : Byte) (a : SubmitArgs) (s : State), s.responseFull = false →
    ((a.number.toNat = 0 ∨ 9999999 < a.number.toNat ∨ 2 < a.priority.toNat ∨ 80 < a.body.length) →
      exec (.submit tag a) s = .next (s.respond ⟨0x44, tag, .badField, []⟩).afterTraffic) ∧
    (∀ p w sub, 1 ≤ a.number.toNat → a.number.toNat ≤ 9999999 → priorityOf a.priority = some p → a.body.length ≤ 80 →
      w = .command s.freshPlace (.submit a) → sub = ⟨a.number.toNat, p, a.body⟩ →
      (∀ t why figures, s.accept false w .commandLink sub = (t, .refused why figures) →
        exec (.submit tag a) s = .next (t.respond ⟨0x44, tag, why, figures⟩).afterTraffic) ∧
      (∀ t, s.accept false w .commandLink sub = (t, .waits) →
        exec (.submit tag a) s = .next (State.afterTraffic { t with clu := { t.clu with
          inProgress := t.clu.inProgress ++ [⟨s.freshPlace, 0x44, tag⟩] } })) ∧
      (∀ t slot i c held, s.accept false w .commandLink sub = (t, .made slot i c held) →
        exec (.submit tag a) s = .next (t.respond ⟨0x44, tag, .ok,
          nat2 ((t.slot slot).reuse * 2048 + slot) ++ nat2 c ++ nat2 i ++
            (if held then [5] else [1])⟩).afterTraffic))) ∧
  (∀ n, n < 65536 → digits5 n = [BitVec.ofNat 8 (0x30 + n / 10000), BitVec.ofNat 8 (0x30 + n / 1000 % 10),
    BitVec.ofNat 8 (0x30 + n / 100 % 10), BitVec.ofNat 8 (0x30 + n / 10 % 10), BitVec.ofNat 8 (0x30 + n % 10)]) ∧
  (refusalLetter .serviceClosed = 0x58 ∧ refusalLetter .unknownSubscriber = 0x55 ∧ refusalLetter .notInService = 0x53 ∧
    refusalLetter .bodyInvalid = 0x42 ∧ refusalLetter .subscriberFull = 0x46 ∧ refusalLetter .storeFull = 0x4D ∧
    refusalLetter .noCredit = 0x43 ∧ refusalLetter .overCeiling = 0x4C) ∧
  (∀ (l : Line) (ones : Byte → Nat), (∀ c, ones c = (List.range 8).countP fun i => c.getLsbD i) →
    l.replyBits = l.reply.flatMap fun c => false :: ((List.range 8).map (fun i => c.getLsbD i) ++
      (if l.mode = .polled then [false] else []) ++
      (match l.parity with
        | .none => []
        | .even => [decide (ones c % 2 = 1)]
        | .odd => [decide (ones c % 2 = 0)]) ++ List.replicate l.stop true))

/-! ## The Dispatch Unit -/

/-- SET ZONES and SET OVERRIDE write the service mask and the overrides of a set and answer the live zone set; ZONE
STATUS answers every zone; and a zone is live by the mask, its override and its input. (The count byte of the list in
ZONE STATUS is the model's reading, notes/assumptions/29.md.) -/
def Obligations.ZoneCommands : Prop :=
  (∀ (tag : Byte) (zones : ZoneSet) (s t : State), s.responseFull = false →
    t = { s with dsu := { s.dsu with service := zones } } →
    exec (.setZones tag zones) s = .next (t.respond ⟨0x50, tag, .ok, bytes2 t.liveZones⟩).afterTraffic) ∧
  (∀ (tag value : Byte) (zones : ZoneSet) (s : State), s.responseFull = false →
    (2 < value.toNat →
      exec (.setOverride tag zones value) s = .next (s.respond ⟨0x51, tag, .badField, []⟩).afterTraffic) ∧
    (∀ v, ((value = 0 ∧ v = Override.follow) ∨ (value = 1 ∧ v = .forceIn) ∨ (value = 2 ∧ v = .forceOut)) →
      ∃ t : State, exec (.setOverride tag zones value) s =
          .next (t.respond ⟨0x51, tag, .ok, bytes2 t.liveZones⟩).afterTraffic ∧
        t = { s with dsu := { s.dsu with overrides := t.dsu.overrides } } ∧
        t.dsu.overrides.length = s.dsu.overrides.length ∧
        ∀ z, z < s.dsu.overrides.length → t.dsu.overrides[z]? =
          if zones.getLsbD z then some v else s.dsu.overrides[z]?)) ∧
  (∀ (tag : Byte) (s : State), s.responseFull = false →
    exec (.zoneStatus tag) s = .next (s.respond ⟨0x52, tag, .ok,
      [16] ++ (List.range 16).flatMap (fun z => flag1 (s.pins.zst.getLsbD z) ++
        nat1 (s.dsu.overrides.getD z .follow).code ++ flag1 (s.dsu.service.getLsbD z) ++ flag1 (s.liveZones.getLsbD z)) ++
      bytes2 s.dsu.service ++ bytes2 s.liveZones ++ flag1 s.dsu.outage⟩)) ∧
  (∀ (s : State) (z : Nat), z < 16 → s.liveZones.getLsbD z = (s.dsu.service.getLsbD z &&
    (decide (s.dsu.overrides.getD z .follow = .forceIn) ||
      (decide (s.dsu.overrides.getD z .follow = .follow) && s.pins.zst.getLsbD z))))

/-- SET TRANSMITTER, HOLD DISPATCH, SET ARBITER and DISPATCH STATUS. (The buffer and hold flags as they stand before
the moves of the same event, the layouts where R189 leaves room, and BAD FIELD for a HOLD DISPATCH value above 1, are
the model's readings, notes/assumptions/22.md, notes/assumptions/29.md and notes/assumptions/21.md; the order of the
queue counts, without a count byte, is its choice, notes/assumptions/41.md.) -/
def Obligations.DispatchCommands : Prop :=
  ∀ (tag : Byte) (s : State), s.responseFull = false →
    (∀ d : Byte, exec (.setTransmitter tag d) s =
      .next (State.respond { s with dsu := { s.dsu with divider := d.toNat } } ⟨0x53, tag, .ok, [d]⟩)) ∧
    (∀ value : Byte, 1 < value.toNat →
      exec (.holdDispatch tag value) s = .next (s.respond ⟨0x54, tag, .badField, []⟩).afterTraffic ∧
      exec (.setArbiter tag value) s = .next (s.respond ⟨0x55, tag, .badField, []⟩)) ∧
    (∀ on : Bool, exec (.holdDispatch tag (if on then 1 else 0)) s = .next (State.respond
      { s with dsu := { s.dsu with hold := on } }
      ⟨0x54, tag, .ok, flag1 on ++ flag1 s.pins.ehold ++ flag1 s.dsu.sending.isSome⟩).afterTraffic) ∧
    exec (.setArbiter tag 0) s = .next (State.respond { s with dsu := { s.dsu with mode := .fixed } }
      ⟨0x55, tag, .ok, 0 :: s.dsu.rotation.flatMap (fun q => nat1 q.code)⟩) ∧
    exec (.setArbiter tag 1) s = .next (State.respond { s with dsu := { s.dsu with mode := .rotating } }
      ⟨0x55, tag, .ok, 1 :: s.dsu.rotation.flatMap (fun q => nat1 q.code)⟩) ∧
    exec (.dispatchStatus tag) s = .next (s.respond ⟨0x56, tag, .ok,
      nat2 s.dsu.queues.urgent.length ++ nat2 s.dsu.queues.normal.length ++ nat2 s.dsu.queues.deferred.length ++
      nat2 s.dsu.queues.retry.length ++ nat1 s.dsu.mode.code ++ s.dsu.rotation.flatMap (fun q => nat1 q.code) ++
      (match s.dsu.staging with
        | some b => 1 :: (nat2 ((s.slot b.slot).reuse * 2048 + b.slot) ++ bytes2 b.frame.zones ++ nat1 b.frame.attempt)
        | none => [0, 0, 0, 0, 0, 0]) ++
      (match s.dsu.sending with
        | some b => 1 :: (nat2 ((s.slot b.slot).reuse * 2048 + b.slot) ++ bytes2 b.frame.zones ++ nat1 b.frame.attempt)
        | none => [0, 0, 0, 0, 0, 0]) ++
      flag1 s.dsu.hold ++ flag1 s.pins.ehold ++ flag1 s.pins.ready ++ flag1 s.dsu.outage ++ flag1 s.msu.flush.isSome ++
      flag1 (decide (Waiter.arbiter ∈ s.pdu.waiters)) ++ flag1 (decide (Waiter.completion ∈ s.pdu.waiters)) ++
      nat1 s.dsu.divider⟩)

/-- The queue the arbiter serves: in FIXED mode the first non-empty one of URGENT, RETRY, NORMAL and DEFERRED, and in
ROTATING mode URGENT before the rotation order; a take in ROTATING mode from another queue than URGENT moves that
queue to the last place, and no other take changes the order. -/
def Obligations.ArbiterOrder : Prop :=
  (∀ d : Dsu, d.mode = .fixed →
    d.serve = (if d.queues.urgent ≠ [] then some .urgent else if d.queues.retry ≠ [] then some .retry
      else if d.queues.normal ≠ [] then some .normal else if d.queues.deferred ≠ [] then some .deferred else none) ∧
    ∀ q, d.rotate q = d.rotation) ∧
  (∀ d : Dsu, d.mode = .rotating → d.rotate .urgent = d.rotation ∧
    (d.queues.urgent ≠ [] → d.serve = some .urgent) ∧
    (∀ a b c, d.rotation = [a, b, c] → a ≠ b → a ≠ c → b ≠ c → a ≠ .urgent → b ≠ .urgent → c ≠ .urgent →
      d.rotate a = [b, c, a] ∧ d.rotate b = [a, c, b] ∧ d.rotate c = [a, b, c] ∧
      (d.queues.urgent = [] →
        (d.queues.get a ≠ [] → d.serve = some a) ∧
        (d.queues.get a = [] → d.queues.get b ≠ [] → d.serve = some b) ∧
        (d.queues.get a = [] → d.queues.get b = [] → d.queues.get c ≠ [] → d.serve = some c) ∧
        (d.queues.get a = [] → d.queues.get b = [] → d.queues.get c = [] → d.serve = none))))

/-- The zone set fixed at staging: by attempt, presence and home zones, cut to the live zones, widened while empty;
with a zone live it is never empty and never holds a zone that is not live. -/
def Obligations.ZoneSetChoice : Prop :=
  ∀ (k : Nat) (p : Presence) (home service live : ZoneSet),
    (home &&& live ≠ 0 → fixedZones .oneWay k p home service live = home &&& live) ∧
    (home &&& live = 0 → fixedZones .oneWay k p home service live = live) ∧
    (∀ z, z < 16 → live.getLsbD z = true →
      fixedZones .twoWay 1 (.here z) home service live = 1#16 <<< z ∧
      fixedZones .twoWay 2 (.here z) home service live = (home ||| 1#16 <<< z) &&& live) ∧
    (∀ z, z < 16 → live.getLsbD z = false → k = 1 ∨ k = 2 →
      fixedZones .twoWay k (.here z) home service live = if home &&& live ≠ 0 then home &&& live else live) ∧
    ((∀ z, p ≠ .here z) → k = 1 ∨ k = 2 →
      fixedZones .twoWay k p home service live = if home &&& live ≠ 0 then home &&& live else live) ∧
    (3 ≤ k → live &&& service = live → fixedZones .twoWay k p home service live = live) ∧
    (live ≠ 0 → ∀ kind, fixedZones kind k p home service live ≠ 0 ∧
      fixedZones kind k p home service live &&& live = fixedZones kind k p home service live)

/-- ARBITER_TAKE and MOVE_TO_SENDING: a take that R108 allows, with no completion waiting (R125), removes the head of
the queue served and, for an owner that is not a TWO-WAY one AWAY, stages it with its zone set and frame; a take that
would settle a slot without room for the owner's entry makes the arbiter wait with nothing done; a move that R120
allows makes the staged slot SENDING with the divider then in force. Where R108, R125 or R120 allows none, nothing
happens. (Rows that R108 or R120 does not allow change nothing, notes/assumptions/5.md; REJECT high at the move sets
the note, notes/assumptions/8.md; a waiting completion bars a take, notes/assumptions/13.md: the model's readings.) -/
def Obligations.ArbiterTakeAndMove : Prop :=
  (∀ s : State, (s.dsu.staging.isSome = true ∨ s.dsu.queues = ⟨[], [], [], []⟩ ∨ s.liveZones = 0 ∨
      s.msu.flush.isSome = true ∨ Waiter.arbiter ∈ s.pdu.waiters ∨ Waiter.completion ∈ s.pdu.waiters) →
      exec .arbiterTake s = .next s) ∧
  (∀ (s : State) (q : QueueName) (n : Nat) (rest : List Nat) (m : Message) (r : Record),
    s.dsu.staging = none → s.liveZones ≠ 0 → s.msu.flush = none → Waiter.arbiter ∉ s.pdu.waiters →
    Waiter.completion ∉ s.pdu.waiters →
    s.dsu.serve = some q → s.dsu.queues.get q = n :: rest → s.message? n = some m → s.record? m.owner = some r →
    ((r.kind = .oneWay ∨ r.presence ≠ .away) → ∃ u : State, exec .arbiterTake s = .next u.afterTraffic ∧
      u.message? n = some { m with origin := q, place := .staged } ∧ (∀ k, k ≠ n → u.message? k = s.message? k) ∧
      u.dsu = { s.dsu with
        queues := s.dsu.queues.set q rest
        rotation := s.dsu.rotate q
        staging := some ⟨n,
          { zones := fixedZones m.kind (m.attempts + 1) r.presence r.zones s.dsu.service s.liveZones,
            address := r.address, tag := m.tag, cls := m.cls, ack := m.kind == .twoWay, attempt := m.attempts + 1,
            body := m.body }⟩ } ∧
      u.stu = s.stu ∧ u.pdu = s.pdu ∧ u.clu = s.clu ∧ u.aru = s.aru ∧ u.lines = s.lines ∧ u.chu = s.chu) ∧
    (r.kind = .twoWay → r.presence = .away → (m.released = true ∨ 4 ≤ r.held.length) → s.touch false m.owner = none →
      exec .arbiterTake s = .next (State.afterTraffic { s with
        pdu := { s.pdu with waiters := s.pdu.waiters ++ [.arbiter] } })) ∧
    (r.kind = .twoWay → r.presence = .away → m.released = false → m.place = .queued → r.held.length < 4 →
      ∃ u : State, exec .arbiterTake s = .next u.afterTraffic ∧
        u.message? n = some { m with
          origin := q, place := .held (s.pdu.tick + BitVec.ofNat 32 (s.aru.hold * 600)) } ∧
        u.record? m.owner = some { r with held := r.held ++ [n] } ∧ (∀ j, j ≠ m.owner → u.record? j = s.record? j) ∧
        ((∀ p, n ∉ (s.dsu.queues.set q rest).get p) → u.dsu = { s.dsu with
          queues := s.dsu.queues.set q rest
          rotation := s.dsu.rotate q }) ∧
        joinsInOrder s.deadlineOf n (s.pdu.tick + BitVec.ofNat 32 (s.aru.hold * 600)) s.aru.timed u.aru.timed ∧
        u.pdu = s.pdu ∧ u.clu = s.clu) ∧
    (∀ s₁ r₁ oldest tail mo, r.kind = .twoWay → r.presence = .away → m.released = false →
      s.touch false m.owner = some s₁ → s₁.record? m.owner = some r₁ → r₁.held = oldest :: tail → 3 ≤ tail.length →
      oldest ≠ n → s.message? oldest = some mo → mo.owner = m.owner →
      ∃ u : State, exec .arbiterTake s = .next u.afterTraffic ∧ u.message? oldest = none ∧
        u.message? n = some { m with
          origin := q, place := .held (s.pdu.tick + BitVec.ofNat 32 (s.aru.hold * 600)) } ∧
        (∀ k, k ≠ n → k ≠ oldest → u.message? k = s.message? k) ∧ (∀ j, j ≠ m.owner → u.record? j = s₁.record? j) ∧
        u.msu.free.toList = oldest :: s.msu.free.toList ∧ u.msu.freeCount = s.msu.freeCount + 1 ∧
        (r₁.state ≠ .retiring ∨ r₁.live.erase oldest ≠ [] → u.pdu = s₁.pdu ∧ u.record? m.owner = some { r₁ with
          pending := r₁.pending - mo.charge
          used := if mo.allowanceUsed = some s.pdu.period then r₁.used - 1 else r₁.used
          live := r₁.live.erase oldest
          held := tail ++ [n] })) ∧
    (∀ s₁ r₁, r.kind = .twoWay → r.presence = .away → m.released = true → s.touch false m.owner = some s₁ →
      s₁.record? m.owner = some r₁ → ∃ u : State, exec .arbiterTake s = .next u.afterTraffic ∧
        u.message? n = none ∧ (∀ k, k ≠ n → u.message? k = s.message? k) ∧
        (∀ j, j ≠ m.owner → u.record? j = s₁.record? j) ∧
        (r₁.state ≠ .retiring ∨ r₁.live.erase n ≠ [] → u.pdu = s₁.pdu ∧
          u.record? m.owner = some { r₁.settle .abandoned m s.pdu.period with
            live := r₁.live.erase n, held := r₁.held.erase n }) ∧
        (r₁.state = .retiring → r₁.live.erase n = [] →
          (s₁.pdu.waiters = [] → s₁.pdu.extract.length < 64 → u.record? m.owner = none) ∧
          ((s₁.pdu.waiters ≠ [] ∨ 64 ≤ s₁.pdu.extract.length) →
            u.record? m.owner = some { r₁.settle .abandoned m s.pdu.period with
              live := [], held := r₁.held.erase n, closing := true } ∧
            u.pdu = { s₁.pdu with waiters := s₁.pdu.waiters ++ [.closing m.owner (.alone false)] })))) ∧
  (∀ s : State, (s.dsu.staging = none ∨ s.dsu.sending.isSome = true ∨ s.pins.ready = false ∨ s.pins.ehold = true ∨
      s.dsu.hold = true ∨ s.msu.flush.isSome = true) → exec .moveToSending s = .next s) ∧
  (∀ (s : State) (b : Staged), s.dsu.staging = some b → s.dsu.sending = none → s.pins.ready = true →
    s.pins.ehold = false → s.dsu.hold = false → s.msu.flush = none →
    exec .moveToSending s = .next (State.afterTraffic
      { s.updateMessage b.slot (fun m => { m with place := .sending }) with dsu := { s.dsu with
          staging := none
          sending := some { slot := b.slot, frame := b.frame, divider := s.dsu.divider }
          refusal := s.pins.reject } }))

/-- FRAME_COMPLETION outside a TRAFFIC RESET: a refused frame with no mark goes back to the head of its origin queue
unchanged; a sent TWO-WAY frame with no mark becomes AWAITING for its acknowledgement wait; any other is settled, by its
marks and kind, after the touch-sweep its owner may need (`s₁`), and waits where that has no room. During a TRAFFIC
RESET the slot is settled FLUSHED and counted. The last slot of a RETIRING owner frees the owner, which counts in the
reset, or the sending buffer empties and the closing entry alone waits, keeping whether the reset began it. (That the
row changes nothing with no frame being sent or with its completion waiting, and what the two counts of the reset take in,
are the model's readings, notes/assumptions/5.md and notes/assumptions/26.md.) -/
def Obligations.FrameCompletionOutcomes : Prop :=
  (∀ s : State, (s.dsu.sending = none ∨ Waiter.completion ∈ s.pdu.waiters) → exec .frameCompletion s = .next s) ∧
  (∀ (s : State) (b : Sending) (m m' : Message), s.dsu.sending = some b → Waiter.completion ∉ s.pdu.waiters →
    s.message? b.slot = some m →
    m' = (if s.dsu.refusal then m else { m with attempts := m.attempts + 1, aired := true }) →
    (s.msu.flush = none → m.ackPending = false → m.cancelPending = false →
      (s.dsu.refusal = true → ∃ u : State, exec .frameCompletion s = .next u.afterTraffic ∧
        u.message? b.slot = some { m with place := .queued } ∧ (∀ k, k ≠ b.slot → u.message? k = s.message? k) ∧
        u.dsu = { s.dsu with
          sending := none, queues := s.dsu.queues.set m.origin (b.slot :: s.dsu.queues.get m.origin) } ∧
        u.stu = s.stu ∧ u.pdu = s.pdu ∧ u.clu = s.clu ∧ u.aru = s.aru) ∧
      (s.dsu.refusal = false → m.kind = .twoWay → ∃ u : State, exec .frameCompletion s = .next u.afterTraffic ∧
        u.message? b.slot = some { m with
          attempts := m.attempts + 1, aired := true,
          place := .awaiting (s.pdu.tick + BitVec.ofNat 32 (min (s.aru.w0 * 2 ^ m.attempts) 600)) } ∧
        (∀ k, k ≠ b.slot → u.message? k = s.message? k) ∧ 
        joinsInOrder s.deadlineOf b.slot (s.pdu.tick + BitVec.ofNat 32 (min (s.aru.w0 * 2 ^ m.attempts) 600))
          s.aru.timed u.aru.timed ∧
        u.dsu = { s.dsu with sending := none } ∧ u.stu = s.stu ∧ u.pdu = s.pdu ∧ u.clu = s.clu)) ∧
    (∀ e, (s.msu.flush = none ∧ ((m.ackPending = true ∧ e = .delivered) ∨
          (m.ackPending = false ∧ m.cancelPending = true ∧ e = .cancelled) ∨
          (m.ackPending = false ∧ m.cancelPending = false ∧ s.dsu.refusal = false ∧ m.kind = .oneWay ∧
            e = .delivered))) →
      (s.touch false m.owner = none → exec .frameCompletion s = .next (State.afterTraffic { s with
        pdu := { s.pdu with waiters := s.pdu.waiters ++ [.completion] } })) ∧
      (∀ s₁ r, m.place = .sending → s.touch false m.owner = some s₁ → s₁.record? m.owner = some r →
        ∃ u : State, exec .frameCompletion s = .next u.afterTraffic ∧
          u.message? b.slot = none ∧ (∀ k, k ≠ b.slot → u.message? k = s.message? k) ∧
          u.dsu = { s.dsu with sending := none } ∧ (∀ j, j ≠ m.owner → u.record? j = s₁.record? j) ∧
          (r.state ≠ .retiring ∨ r.live.erase b.slot ≠ [] → u.pdu = s₁.pdu ∧
            u.record? m.owner = some { r.settle e m' s.pdu.period with
              live := r.live.erase b.slot, held := r.held.erase b.slot }) ∧
          (r.state = .retiring → r.live.erase b.slot = [] →
            (s₁.pdu.waiters = [] → s₁.pdu.extract.length < 64 → u.record? m.owner = none) ∧
            ((s₁.pdu.waiters ≠ [] ∨ 64 ≤ s₁.pdu.extract.length) →
              u.record? m.owner = some { r.settle e m' s.pdu.period with
                live := [], held := r.held.erase b.slot, closing := true } ∧
              u.pdu = { s₁.pdu with waiters := s₁.pdu.waiters ++ [.closing m.owner (.alone false)] })))) ∧
    (∀ f, s.msu.flush = some f →
      (s.touch false m.owner = none → exec .frameCompletion s = .next (State.afterTraffic { s with
        pdu := { s.pdu with waiters := s.pdu.waiters ++ [.completion] } })) ∧
      (∀ s₁ r, m.place = .sending → s.touch false m.owner = some s₁ → s₁.record? m.owner = some r →
        ∃ u : State, exec .frameCompletion s = .next u.afterTraffic ∧
          u.message? b.slot = none ∧ (∀ k, k ≠ b.slot → u.message? k = s.message? k) ∧
          u.dsu = { s.dsu with sending := none } ∧ (∀ j, j ≠ m.owner → u.record? j = s₁.record? j) ∧
          (r.state ≠ .retiring ∨ r.live.erase b.slot ≠ [] → u.pdu = s₁.pdu ∧
            u.record? m.owner = some { r.settle .flushed m s.pdu.period with
              live := r.live.erase b.slot, held := r.held.erase b.slot } ∧
            u.msu.flush = some { f with flushed := f.flushed + 1 }) ∧
          (r.state = .retiring → r.live.erase b.slot = [] →
            (s₁.pdu.waiters = [] → s₁.pdu.extract.length < 64 → u.record? m.owner = none ∧
              u.msu.flush = some { f with flushed := f.flushed + 1, freed := f.freed + 1 }) ∧
            ((s₁.pdu.waiters ≠ [] ∨ 64 ≤ s₁.pdu.extract.length) →
              u.record? m.owner = some { r.settle .flushed m s.pdu.period with
                live := [], held := r.held.erase b.slot, closing := true } ∧
              u.msu.flush = some { f with flushed := f.flushed + 1 } ∧
              u.pdu = { s₁.pdu with waiters := s₁.pdu.waiters ++ [.closing m.owner (.alone true)] })))))

/-- The pin events: each takes its level; READY, EHOLD and ZST let the moves and takes follow in the same event;
REJECT high sets the refusal note only while a frame is being sent: with the sending buffer empty, or once the last bit
has been sent and the completion waits, the note stays. (REJECT_RISE carrying a level, and the note that stays while the
completion waits, are the model's readings, notes/assumptions/8.md.) -/
def Obligations.PinEvents : Prop :=
  ∀ (level : Bool) (s : State),
    exec (.readyChange level) s = .next (State.afterTraffic { s with pins := { s.pins with ready := level } }) ∧
    exec (.eholdChange level) s = .next (State.afterTraffic { s with pins := { s.pins with ehold := level } }) ∧
    (∀ z : Fin 16, ∃ zst : ZoneSet, exec (.zoneStatusChange z level) s =
        .next (State.afterTraffic { s with pins := { s.pins with zst := zst } }) ∧
      ∀ k < 16, zst.getLsbD k = if k = z.val then level else s.pins.zst.getLsbD k) ∧
    ((level = false ∨ s.dsu.sending = none ∨ Waiter.completion ∈ s.pdu.waiters) →
      exec (.rejectRise level) s = .next { s with pins := { s.pins with reject := level } }) ∧
    (s.dsu.sending.isSome = true → Waiter.completion ∉ s.pdu.waiters →
      exec (.rejectRise true) s = .next { s with
        pins := { s.pins with reject := true }
        dsu := { s.dsu with refusal := true } })

/-- The frame on TXD: 56 header bits and seven for each body character, its fields in order, each most significant bit
first. -/
def Obligations.TransmitterFrameLayout : Prop :=
  (∀ f : TxFrame, f.bits.length = 56 + 7 * f.body.length) ∧
  (∀ (f : TxFrame) (i : Nat),
    (i < 16 → f.bits[i]? = some (f.zones.getLsbD (15 - i))) ∧
    (i < 20 → f.bits[16 + i]? = some (f.address.testBit (19 - i))) ∧
    (i < 7 → f.bits[36 + i]? = some (f.tag.testBit (6 - i))) ∧
    (i < 2 → f.bits[43 + i]? = some (f.cls.code.testBit (1 - i))) ∧
    f.bits[45]? = some f.ack ∧
    (i < 3 → f.bits[46 + i]? = some (f.attempt.testBit (2 - i))) ∧
    (i < 7 → f.bits[49 + i]? = some (f.body.length.testBit (6 - i))) ∧
    (∀ (c : Nat) (x : Byte), f.body[c]? = some x → i < 7 → f.bits[56 + 7 * c + i]? = some (x.getLsbD (6 - i)))) ∧
  (∀ s : State, (s.dsu.sending = none ∨ Waiter.completion ∈ s.pdu.waiters) → s.transmitter = none) ∧
  (∀ (s : State) (b : Sending), s.dsu.sending = some b → Waiter.completion ∉ s.pdu.waiters →
    s.transmitter = some (b.frame.bits, 2 * (b.divider + 1)))

/-! ## The return channel -/

/-- SET RETURN LINK, ENABLE RETURN LINK and DISABLE RETURN LINK: their refusals, the settings written, the counts set
to 0 at an enable, the report in assembly discarded at a disable, and the reports of the FIFO kept. (That the enable of
link B leaves a poll that line 3 had begun is the model's reading, notes/assumptions/27.md.) -/
def Obligations.ReturnLinkCommands : Prop :=
  (∀ (tag : Byte) (a : LinkArgs) (s : State), s.responseFull = false →
    ((1 < a.link.toNat ∨ 4095 < a.n.toNat ∨ 1 < a.e.toNat ∨ 2 < a.parity.toNat) →
      exec (.setReturnLink tag a) s = .next (s.respond ⟨0x60, tag, .badField, []⟩)) ∧
    (∀ l p, linkOf a.link = some l → a.n.toNat ≤ 4095 → a.e.toNat ≤ 1 → parityOf a.parity = some p →
      ((s.receiver l).state ≠ .disabled →
        exec (.setReturnLink tag a) s = .next (s.respond ⟨0x60, tag, .linkActive, []⟩)) ∧
      ((s.receiver l).state = .disabled → exec (.setReturnLink tag a) s =
        .next ((s.putReceiver l { s.receiver l with n := a.n.toNat, e := a.e.toNat, parity := p }).respond
          ⟨0x60, tag, .ok, []⟩)))) ∧
  (∀ (tag link : Byte) (s : State), s.responseFull = false →
    (1 < link.toNat →
      exec (.enableReturnLink tag link) s = .next (s.respond ⟨0x61, tag, .badField, []⟩) ∧
      exec (.disableReturnLink tag link) s = .next (s.respond ⟨0x62, tag, .badField, []⟩)) ∧
    (∀ l r, ((link = 0 ∧ l = Link.a) ∨ (link = 1 ∧ l = Link.b)) → r = s.receiver l →
      (r.state ≠ .disabled →
        exec (.enableReturnLink tag link) s = .next (s.respond ⟨0x61, tag, .ok, nat1 r.state.code⟩) ∧
        exec (.disableReturnLink tag link) s = .next ((s.putReceiver l { r with
          state := .disabled, chars := [], spoiled := false, timer := none }).respond ⟨0x62, tag, .ok, [0]⟩)) ∧
      (r.state = .disabled →
        exec (.disableReturnLink tag link) s = .next (s.respond ⟨0x62, tag, .ok, [0]⟩) ∧
        (l = .b → (s.line 3).state ≠ .disabled →
          exec (.enableReturnLink tag link) s = .next (s.respond ⟨0x61, tag, .lineActive, []⟩)) ∧
        ((l = .a ∨ (s.line 3).state = .disabled) → exec (.enableReturnLink tag link) s =
          .next ((s.putReceiver l { r with state := .hunting, dropped := 0, rejected := 0 }).respond
            ⟨0x61, tag, .ok, [1]⟩)))))

/-- SET RETRY clamps its three values and answers them with a clamped indication for each that was altered; RETURN
STATUS answers both links, the policy, the timed list and the tick, and changes nothing. (Which bit of the clamped byte
of SET RETRY stands for which value, bit 0 up for W0, A_max and H, and the layout of RETURN STATUS where R189 leaves room
are the model's reading, notes/assumptions/29.md; that the waiting flags of RETURN STATUS are set while only a closing
entry waits is its choice, notes/assumptions/42.md.) -/
def Obligations.RetryAndReturnStatus : Prop :=
  (∀ (tag aMax : Byte) (w0 hold : BitVec 16) (s : State), s.responseFull = false →
    exec (.setRetry tag w0 aMax hold) s = .next (State.respond
      { s with aru := { s.aru with
          w0 := max 10 (min w0.toNat 600), aMax := max 1 (min aMax.toNat 7), hold := max 1 hold.toNat } }
      ⟨0x63, tag, .ok, nat2 (max 10 (min w0.toNat 600)) ++ nat1 (max 1 (min aMax.toNat 7)) ++ nat2 (max 1 hold.toNat) ++
        [(if w0.toNat < 10 ∨ 600 < w0.toNat then 1#8 else 0#8) |||
          (if aMax.toNat < 1 ∨ 7 < aMax.toNat then 2#8 else 0#8) ||| (if hold.toNat = 0 then 4#8 else 0#8)]⟩)) ∧
  (∀ (tag : Byte) (s : State), s.responseFull = false →
    exec (.returnStatus tag) s = .next (s.respond ⟨0x64, tag, .ok,
      2 :: (nat1 s.rla.state.code ++ nat2 s.rla.n ++ nat1 s.rla.e ++ nat1 s.rla.parity.code ++ nat1 s.rla.fifo.length ++
        flag1 s.rla.episode ++ nat2 s.rla.dropped ++ nat2 s.rla.rejected ++ flag1 (s.reportWaits .a)) ++
      (nat1 s.rlb.state.code ++ nat2 s.rlb.n ++ nat1 s.rlb.e ++ nat1 s.rlb.parity.code ++ nat1 s.rlb.fifo.length ++
        flag1 s.rlb.episode ++ nat2 s.rlb.dropped ++ nat2 s.rlb.rejected ++ flag1 (s.reportWaits .b) ++
        flag1 (decide (s.rlb.state ≠ .disabled))) ++
      nat2 s.aru.w0 ++ nat1 s.aru.aMax ++ nat2 s.aru.hold ++ nat2 s.aru.timed.length ++
      (match s.aru.timed with
        | n :: _ => 1 :: bytes4 (s.deadlineOf n)
        | [] => [0, 0, 0, 0, 0]) ++
      bytes4 s.pdu.tick ++ flag1 s.expiryWaits⟩))

/-- RETURN_CHARACTER_RECEIVED and REPORT_TIMEOUT: a good 0xA5 begins a report on a HUNTING link, the second to sixth
characters take their places, and the seventh ends the report, which is rejected and counted, enters the FIFO, or is
dropped and counted with one notice an episode; 3 ticks without a character reject a report in assembly. What a character
carries is read from the levels on RXD: a start bit, the data bits least significant first, one byte of the report, the
parity bit unless NONE and the stop bit. (The counting of the timer is the model's reading, notes/assumptions/10.md; that
REPORT_TIMEOUT changes nothing before 3 ticks or while not ASSEMBLING is notes/assumptions/5.md; that a bit the format
does not have is given as clear is its choice, notes/assumptions/37.md.) -/
def Obligations.ReportAssembly : Prop :=
  (∀ (r : Receiver) (bits : List Bool), r.sampled (true :: bits) = none) ∧
  (∀ (r : Receiver) (data : Byte) (parity stop : Bool) (rest : List Bool),
    r.sampled (false :: ((List.range 8).map (fun i => data.getLsbD i) ++
        (if r.parity = .none then [] else [parity]) ++ stop :: rest)) =
      some ⟨data, false, decide (r.parity ≠ .none) && parity, stop⟩) ∧
  (∀ (l : Link) (data : Byte) (parity stop : Bool) (s : State) (r ended : Receiver) (bad : Bool), r = s.receiver l →
    bad = (!stop || parityError r.parity data none parity) →
    ended = { r with state := .hunting, chars := [], spoiled := false, timer := none } →
    (r.state = .disabled → exec (.returnCharacterReceived l data parity stop) s = .next s) ∧
    (r.state = .hunting →
      (data = 0xA5 → bad = false → exec (.returnCharacterReceived l data parity stop) s = .next (s.putReceiver l { r with
        state := .assembling, chars := [0xA5], spoiled := false, timer := some 0 })) ∧
      ((data ≠ 0xA5 ∨ bad = true) → exec (.returnCharacterReceived l data parity stop) s = .next s)) ∧
    (r.state = .assembling →
      (r.chars.length < 6 → exec (.returnCharacterReceived l data parity stop) s = .next (s.putReceiver l { r with
        chars := r.chars ++ [data], spoiled := r.spoiled || bad, timer := some 0 })) ∧
      (6 ≤ r.chars.length →
        ((r.spoiled = true ∨ bad = true ∨ reportOf (r.chars ++ [data]) = none) →
          exec (.returnCharacterReceived l data parity stop) s =
            .next (s.putReceiver l { ended with rejected := min (r.rejected + 1) 65535 })) ∧
        (∀ rep, r.spoiled = false → bad = false → reportOf (r.chars ++ [data]) = some rep →
          (r.fifo.length < 16 → exec (.returnCharacterReceived l data parity stop) s =
            .next (s.putReceiver l { ended with fifo := r.fifo ++ [rep] })) ∧
          (16 ≤ r.fifo.length → r.episode = true → exec (.returnCharacterReceived l data parity stop) s =
            .next (s.putReceiver l { ended with dropped := min (r.dropped + 1) 65535 })) ∧
          (16 ≤ r.fifo.length → r.episode = false → exec (.returnCharacterReceived l data parity stop) s =
            .next ((s.putReceiver l { ended with dropped := min (r.dropped + 1) 65535, episode := true }).raise
              (.reportDropped l))))))) ∧
  (∀ (l : Link) (s : State) (k : Nat), (s.receiver l).state = .assembling → (s.receiver l).timer = some k →
    (3 ≤ k → exec (.reportTimeout l) s = .next (s.putReceiver l { s.receiver l with
      state := .hunting, chars := [], spoiled := false, timer := none,
      rejected := min ((s.receiver l).rejected + 1) 65535 })) ∧
    (k < 3 → exec (.reportTimeout l) s = .next s)) ∧
  (∀ (l : Link) (s : State), (s.receiver l).state ≠ .assembling → exec (.reportTimeout l) s = .next s) ∧
  (∀ (lead kind a2 a1 a0 tag zone : Byte) (address : Nat),
    address = 65536 * a2.toNat + 256 * a1.toNat + a0.toNat →
    ((address = 0 ∨ 1048575 < address ∨ 15 < zone.toNat ∨ (kind ≠ 1 ∧ kind ≠ 2 ∧ kind ≠ 3) ∨
      (kind = 1 ∧ 127 < tag.toNat)) → reportOf [lead, kind, a2, a1, a0, tag, zone] = none) ∧
    (1 ≤ address → address ≤ 1048575 → zone.toNat ≤ 15 →
      (kind = 1 → tag.toNat ≤ 127 →
        reportOf [lead, kind, a2, a1, a0, tag, zone] = some (.ack address tag.toNat zone.toNat)) ∧
      (kind = 2 → reportOf [lead, kind, a2, a1, a0, tag, zone] = some (.register address zone.toNat)) ∧
      (kind = 3 → reportOf [lead, kind, a2, a1, a0, tag, zone] = some (.leave address zone.toNat))))

/-- REPORT_TAKEN: a report is discarded while the table is not READY, ignored for an unknown address or a ONE-WAY
record; a LEAVE makes presence AWAY; a REGISTER makes it HERE and releases every held slot, oldest first, to the tail
of RETRY; an ACK makes it HERE and acts on the aired slot that carries its tag: a SENDING one is marked, any other
settled DELIVERED and taken out of its place after the touch-sweep its owner may need (`s₁`), and the report waits
where that has no room. (That the row changes nothing on an empty FIFO or while its report waits is
notes/assumptions/5.md.) -/
def Obligations.ReportTaken : Prop :=
  (∀ (l : Link) (s : State), ((s.receiver l).fifo = [] ∨ s.reportWaits l = true) → exec (.reportTaken l) s = .next s) ∧
  (∀ (l : Link) (s : State) (rep : Report) (rest : List Report) (popped : Receiver),
    (s.receiver l).fifo = rep :: rest → s.reportWaits l = false →
    popped = { s.receiver l with fifo := rest, episode := (s.receiver l).episode && !rest.isEmpty } →
    ((s.stu.state ≠ .ready ∨ s.findAddress rep.address = none ∨
        (∃ i r, s.findAddress rep.address = some i ∧ s.record? i = some r ∧ r.kind = .oneWay)) →
      exec (.reportTaken l) s = .next (s.putReceiver l popped).afterTraffic) ∧
    (∀ i r, s.stu.state = .ready → s.findAddress rep.address = some i → s.record? i = some r → r.kind = .twoWay →
      (∀ address zone, rep = .leave address zone → exec (.reportTaken l) s =
        .next ((s.putRecord i { r with presence := .away }).putReceiver l popped).afterTraffic) ∧
      (∀ address zone, rep = .register address zone → r.held.Nodup →
        ∃ u : State, exec (.reportTaken l) s = .next u.afterTraffic ∧
          u.record? i = some { r with presence := .here zone, held := [] } ∧
          (∀ j, j ≠ i → u.record? j = s.record? j) ∧
          (∀ n ∈ r.held, ∀ m, s.message? n = some m →
            u.message? n = some { m with place := .queued, attempts := 0, released := true }) ∧
          (∀ n, n ∉ r.held → u.message? n = s.message? n) ∧
          u.dsu = { s.dsu with queues := { s.dsu.queues with retry := s.dsu.queues.retry ++ r.held } } ∧
          u.aru = { s.aru with timed := s.aru.timed.diff r.held } ∧ u.receiver l = popped ∧
          u.pdu = s.pdu ∧ u.clu = s.clu ∧ u.lines = s.lines ∧ u.chu = s.chu) ∧
      (∀ address tag zone, rep = .ack address tag zone →
        ((∀ n ∈ r.live, ∀ m, s.message? n = some m → m.tag = tag → m.aired = false) →
          exec (.reportTaken l) s =
            .next ((s.putRecord i { r with presence := .here zone }).putReceiver l popped).afterTraffic) ∧
        (∀ n m, n ∈ r.live → s.message? n = some m → m.tag = tag → m.aired = true → m.owner = i →
          (∀ k ∈ r.live, k ≠ n → ∀ m', s.message? k = some m' → m'.tag ≠ tag) →
          (m.place = .sending → ∃ u : State, exec (.reportTaken l) s = .next u.afterTraffic ∧
            u.record? i = some { r with presence := .here zone } ∧
            u.message? n = some { m with ackPending := true } ∧ (∀ k, k ≠ n → u.message? k = s.message? k) ∧
            u.receiver l = popped ∧ u.pdu = s.pdu ∧ u.dsu = s.dsu ∧ u.aru = s.aru ∧ u.clu = s.clu) ∧
          (m.place ≠ .sending → s.touch false i = none → exec (.reportTaken l) s =
            .next (State.afterTraffic { s with pdu := { s.pdu with waiters := s.pdu.waiters ++ [.report l] } })) ∧
          (∀ s₁ r₁, m.place ≠ .sending → s.touch false i = some s₁ → s₁.record? i = some r₁ →
            ∃ u : State, exec (.reportTaken l) s = .next u.afterTraffic ∧
              u.message? n = none ∧ (∀ k, k ≠ n → u.message? k = s.message? k) ∧
              (∀ j, j ≠ i → u.record? j = s₁.record? j) ∧
              (∀ q, u.dsu.queues.get q = if m.place = .queued then (s.dsu.queues.get q).erase n
                else s.dsu.queues.get q) ∧
              u.dsu = { s.dsu with
                queues := u.dsu.queues, staging := if m.place = .staged then none else s.dsu.staging } ∧
              u.aru = { s.aru with timed := if m.deadline = none then s.aru.timed else s.aru.timed.erase n } ∧
              (r₁.state ≠ .retiring ∨ r₁.live.erase n ≠ [] →
                u.record? i = some { ({ r₁ with presence := .here zone } : Record).settle .delivered m s.pdu.period with
                  live := r₁.live.erase n, held := r₁.held.erase n } ∧
                u.receiver l = popped ∧ u.pdu = s₁.pdu) ∧
              (r₁.state = .retiring → r₁.live.erase n = [] →
                (s₁.pdu.waiters = [] → s₁.pdu.extract.length < 64 → u.record? i = none ∧ u.receiver l = popped) ∧
                ((s₁.pdu.waiters ≠ [] ∨ 64 ≤ s₁.pdu.extract.length) →
                  u.receiver l = s.receiver l ∧
                  u.pdu.waiters = s₁.pdu.waiters ++ [.closing i (.report l)])))))))

/-- EXPIRY: none is made while the head of the timed list is not due or an expiry waits. A due AWAITING slot is
retried while its attempts are below the limit and its owner is not AWAY, and otherwise parked, which puts it in the
timed list by its hold deadline; a due HELD slot, and a released slot whose parking comes, is settled ABANDONED after
the touch-sweep its owner may need (`s₁`), and waits where that has no room. (That the row changes nothing where no
expiry is due is notes/assumptions/5.md.) -/
def Obligations.ExpiryOutcomes : Prop :=
  (∀ s : State, (s.aru.timed = [] ∨ s.expiryWaits = true ∨
      (∃ n rest m d, s.aru.timed = n :: rest ∧ s.message? n = some m ∧
        (m.place = .awaiting d ∨ m.place = .held d) ∧ 0 < (d - s.pdu.tick).toInt)) →
    exec .expiry s = .next s) ∧
  (∀ (s : State) (n : Nat) (rest : List Nat) (m : Message) (r : Record) (d : Tick), s.aru.timed = n :: rest →
    s.expiryWaits = false → s.message? n = some m → s.record? m.owner = some r → (d - s.pdu.tick).toInt ≤ 0 →
    (m.place = .awaiting d → m.attempts < s.aru.aMax → r.presence ≠ .away →
      ∃ u : State, exec .expiry s = .next u.afterTraffic ∧ u.message? n = some { m with place := .queued } ∧
        (∀ k, k ≠ n → u.message? k = s.message? k) ∧ u.aru = { s.aru with timed := rest } ∧
        u.dsu = { s.dsu with queues := { s.dsu.queues with retry := s.dsu.queues.retry ++ [n] } } ∧
        u.stu = s.stu ∧ u.pdu = s.pdu ∧ u.clu = s.clu ∧ u.lines = s.lines ∧ u.chu = s.chu) ∧
    (m.place = .awaiting d → (s.aru.aMax ≤ m.attempts ∨ r.presence = .away) → m.released = false → r.held.length < 4 →
      ∃ u : State, exec .expiry s = .next u.afterTraffic ∧
        u.message? n = some { m with place := .held (s.pdu.tick + BitVec.ofNat 32 (s.aru.hold * 600)) } ∧
        (∀ k, k ≠ n → u.message? k = s.message? k) ∧
        joinsInOrder s.deadlineOf n (s.pdu.tick + BitVec.ofNat 32 (s.aru.hold * 600)) rest u.aru.timed ∧
        u.record? m.owner = some { r with held := r.held ++ [n] } ∧ (∀ j, j ≠ m.owner → u.record? j = s.record? j) ∧
        u.dsu = s.dsu ∧ u.pdu = s.pdu ∧ u.clu = s.clu) ∧
    ((m.place = .held d ∨ (m.place = .awaiting d ∧ (s.aru.aMax ≤ m.attempts ∨ r.presence = .away) ∧
        (m.released = true ∨ 4 ≤ r.held.length))) → s.touch false m.owner = none →
      exec .expiry s = .next (State.afterTraffic { s with
        pdu := { s.pdu with waiters := s.pdu.waiters ++ [.expiry] } })) ∧
    (∀ s₁ r₁, (m.place = .held d ∨ (m.place = .awaiting d ∧ (s.aru.aMax ≤ m.attempts ∨ r.presence = .away) ∧
        m.released = true)) → s.touch false m.owner = some s₁ → s₁.record? m.owner = some r₁ →
      ∃ u : State, exec .expiry s = .next u.afterTraffic ∧ u.message? n = none ∧
        (∀ k, k ≠ n → u.message? k = s.message? k) ∧ u.aru = { s.aru with timed := rest } ∧ u.dsu = s.dsu ∧
        (r₁.state ≠ .retiring ∨ r₁.live.erase n ≠ [] → u.pdu = s₁.pdu ∧
          u.record? m.owner = some { r₁.settle .abandoned m s.pdu.period with
            live := r₁.live.erase n, held := r₁.held.erase n }) ∧
        (r₁.state = .retiring → r₁.live.erase n = [] →
          (s₁.pdu.waiters = [] → s₁.pdu.extract.length < 64 → u.record? m.owner = none) ∧
          ((s₁.pdu.waiters ≠ [] ∨ 64 ≤ s₁.pdu.extract.length) →
            u.pdu.waiters = s₁.pdu.waiters ++ [.closing m.owner .expiry]))) ∧
    (∀ s₁ r₁ oldest tail mo, m.place = .awaiting d → (s.aru.aMax ≤ m.attempts ∨ r.presence = .away) →
      m.released = false → s.touch false m.owner = some s₁ → s₁.record? m.owner = some r₁ →
      r₁.held = oldest :: tail → 3 ≤ tail.length → oldest ≠ n → s.message? oldest = some mo → mo.owner = m.owner →
      ∃ u : State, exec .expiry s = .next u.afterTraffic ∧ u.message? oldest = none ∧
        u.message? n = some { m with place := .held (s.pdu.tick + BitVec.ofNat 32 (s.aru.hold * 600)) } ∧
        (∀ k, k ≠ n → k ≠ oldest → u.message? k = s.message? k) ∧ (∀ j, j ≠ m.owner → u.record? j = s₁.record? j) ∧
        u.msu.free.toList = oldest :: s.msu.free.toList ∧ u.msu.freeCount = s.msu.freeCount + 1 ∧
        (r₁.state ≠ .retiring ∨ r₁.live.erase oldest ≠ [] → u.pdu = s₁.pdu ∧ u.record? m.owner = some { r₁ with
          pending := r₁.pending - mo.charge
          used := if mo.allowanceUsed = some s.pdu.period then r₁.used - 1 else r₁.used
          live := r₁.live.erase oldest
          held := tail ++ [n] }) ∧
        (∀ d', mo.place = .held d' → s.aru.timed.Nodup → u.dsu = s.dsu ∧
          joinsInOrder s.deadlineOf n (s.pdu.tick + BitVec.ofNat 32 (s.aru.hold * 600)) (rest.erase oldest)
            u.aru.timed)))

/-! ## The Period Unit -/

/-- SET TIMEBASE, SET CLOCK and SET CLOSE: what each writes and answers. -/
def Obligations.TimebaseCommands : Prop :=
  ∀ (tag : Byte) (s : State), s.responseFull = false →
    (∀ (p : BitVec 16) (e : Byte),
      ((p = 0 ∨ 1 < e.toNat) → exec (.setTimebase tag p e) s = .next (s.respond ⟨0x70, tag, .badField, []⟩)) ∧
      (p ≠ 0 → e.toNat ≤ 1 → exec (.setTimebase tag p e) s = .next (State.respond
        { s with pdu := { s.pdu with p := p.toNat, e := e.toNat } } ⟨0x70, tag, .ok, bytes2 p ++ [e]⟩))) ∧
    (∀ minute : BitVec 24, exec (.setClock tag minute) s = .next (State.respond
      { s with pdu := { s.pdu with minute := minute.toNat, tickMinute := 0 } } ⟨0x71, tag, .ok, bytes3 minute⟩)) ∧
    (∀ (minute : BitVec 24) (auto : Byte),
      (1 < auto.toNat → exec (.setClose tag minute auto) s = .next (s.respond ⟨0x72, tag, .badField, []⟩)) ∧
      (auto.toNat ≤ 1 → exec (.setClose tag minute auto) s = .next (State.respond
        { s with pdu := { s.pdu with closeAt := minute.toNat, auto := decide (auto = 1) } }
        ⟨0x72, tag, .ok, bytes3 minute ++ [auto]⟩)))

/-- TICK and MINUTE_ADVANCE: every tick event raises the tick counter, counts in every running timer, and takes the
length of the next tick period from P and E, and changes nothing else; the 600th of a minute raises the minute counter,
and a minute equal to the close-at minute with auto-close ON starts a close, or raises CLOSE MISSED during a sweep.
(That the two rows are the same event at the 600th tick, the field for the length of a tick period, and the tick count
that a notice of that event carries, are the model's readings, notes/assumptions/9.md, notes/assumptions/11.md and
notes/assumptions/35.md.) -/
def Obligations.TickAndMinute : Prop :=
  (∀ s : State, s.pdu.tickMinute < 599 → ∃ t : State, exec .tick s = .next t ∧
    t.pdu = { s.pdu with
      tick := s.pdu.tick + 1, tickMinute := s.pdu.tickMinute + 1,
      tickLength := (2 * s.pdu.p + 2 + s.pdu.e) * 256 } ∧
    (∀ n, t.line n = { s.line n with
      interTimer := (s.line n).interTimer.map (· + 1), stationTimer := (s.line n).stationTimer.map (· + 1) }) ∧
    (∀ l, t.receiver l = { s.receiver l with timer := (s.receiver l).timer.map (· + 1) }) ∧
    t.pins = s.pins ∧ t.clu = s.clu ∧ t.stu = s.stu ∧ t.msu = s.msu ∧ t.chu = s.chu ∧ t.dsu = s.dsu ∧
    t.aru = s.aru) ∧
  (∀ s : State, s.pdu.tickMinute < 599 → exec .minuteAdvance s = .next s) ∧
  (∀ (s : State) (minute : Nat) (ticked : Pdu), s.pdu.tickMinute = 599 → minute = (s.pdu.minute + 1) % 16777216 →
    ticked = { s.pdu with
      tick := s.pdu.tick + 1, tickMinute := 0, minute := minute, tickLength := (2 * s.pdu.p + 2 + s.pdu.e) * 256 } →
    exec .tick s = exec .minuteAdvance s ∧
    ∃ t : State, exec .minuteAdvance s = .next t ∧
      (∀ n, t.line n = { s.line n with
        interTimer := (s.line n).interTimer.map (· + 1), stationTimer := (s.line n).stationTimer.map (· + 1) }) ∧
      (∀ l, t.receiver l = { s.receiver l with timer := (s.receiver l).timer.map (· + 1) }) ∧
      t.pins = s.pins ∧ t.stu = s.stu ∧ t.msu = s.msu ∧ t.chu = s.chu ∧ t.dsu = s.dsu ∧ t.aru = s.aru ∧
      ((s.pdu.auto = false ∨ minute ≠ s.pdu.closeAt) → t.clu = s.clu ∧ t.pdu = ticked) ∧
      (s.pdu.auto = true → minute = s.pdu.closeAt → s.pdu.sweep = .idle →
        t.pdu = { ticked with
          period := (s.pdu.period + 1) % 65536, cursor := 0, entries := 0
          sweep := if s.pdu.extract.length < 56 ∧ s.pdu.waiters = [] then .sweeping else .stalled } ∧
        (s.clu.notices.length < 32 → t.clu = { s.clu with
          notices := s.clu.notices ++ [⟨.closeStarted ((s.pdu.period + 1) % 65536) .auto, s.pdu.tick + 1⟩]
          attn := true }) ∧
        (32 ≤ s.clu.notices.length → t.clu = { s.clu with overflow := true })) ∧
      (s.pdu.auto = true → minute = s.pdu.closeAt → s.pdu.sweep ≠ .idle → t.pdu = ticked ∧
        (s.clu.notices.length < 32 → t.clu = { s.clu with
          notices := s.clu.notices ++ [⟨.closeMissed minute s.pdu.period, s.pdu.tick + 1⟩]
          attn := true }) ∧
        (32 ≤ s.clu.notices.length → t.clu = { s.clu with overflow := true })))

/-- CLOSE PERIOD starts a close unless a sweep is in progress; READ EXTRACT removes the oldest entries, 28 bytes each,
and lets a stalled sweep go on; PERIOD STATUS changes nothing. SWEEP_VISIT: the test before the visit stalls the sweep
at 56 entries or behind a waiter; a visit at or above the capacity ends the sweep, a visit of a FREE or current record
or of a table not READY passes over it, and any other visit closes the record's period. (The layout of PERIOD STATUS
where R189 leaves room, and that SWEEP_VISIT changes nothing while not SWEEPING, are the model's readings,
notes/assumptions/29.md and notes/assumptions/5.md.) -/
def Obligations.CloseSweepAndExtract : Prop :=
  (∀ (tag : Byte) (s : State), s.responseFull = false →
     (s.pdu.sweep ≠ .idle → exec (.closePeriod tag) s = .next (s.respond ⟨0x73, tag, .sweepBusy, []⟩)) ∧
     (s.pdu.sweep = .idle → exec (.closePeriod tag) s = .next ((State.raise
       { s with pdu := { s.pdu with
           period := (s.pdu.period + 1) % 65536, cursor := 0, entries := 0,
           sweep := if s.pdu.extract.length < 56 ∧ s.pdu.waiters = [] then .sweeping else .stalled } }
       (.closeStarted ((s.pdu.period + 1) % 65536) .command)).respond
         ⟨0x73, tag, .ok, nat2 ((s.pdu.period + 1) % 65536)⟩)) ∧
     (∀ count : Byte, (count = 0 ∨ 8 < count.toNat) →
       exec (.readExtract tag count) s = .next (s.respond ⟨0x74, tag, .badField, []⟩)) ∧
     (∀ count : Byte, 1 ≤ count.toNat → count.toNat ≤ 8 → exec (.readExtract tag count) s = .next (State.respond
       { s with pdu := { s.pdu with
           extract := s.pdu.extract.drop count.toNat
           sweep := if s.pdu.sweep = .stalled ∧ s.pdu.waiters = [] ∧ s.pdu.extract.length - count.toNat < 56
             then .sweeping else s.pdu.sweep } }
       ⟨0x74, tag, .ok, nat1 (min count.toNat s.pdu.extract.length) ++
         (s.pdu.extract.take count.toNat).flatMap Entry.bytes ++ nat1 (s.pdu.extract.length - count.toNat)⟩)) ∧
     exec (.periodStatus tag) s = .next (s.respond ⟨0x75, tag, .ok,
       nat2 s.pdu.p ++ nat1 s.pdu.e ++ bytes4 s.pdu.tick ++ nat2 s.pdu.tickMinute ++ nat3 s.pdu.minute ++
       nat3 s.pdu.closeAt ++ flag1 s.pdu.auto ++ nat2 s.pdu.period ++ nat1 s.pdu.sweep.code ++ nat3 s.pdu.cursor ++
       nat3 s.pdu.entries ++ nat1 s.pdu.extract.length ++ nat3 s.pdu.waiters.length ++
       (match s.pdu.waiters with
         | w :: _ => nat1 w.code
         | [] => [0])⟩)) ∧
  (∀ s : State,
     (s.pdu.sweep ≠ .sweeping → exec .sweepVisit s = .next s) ∧
     (s.pdu.sweep = .sweeping → (56 ≤ s.pdu.extract.length ∨ s.pdu.waiters ≠ []) →
       exec .sweepVisit s = .next { s with pdu := { s.pdu with sweep := .stalled } }) ∧
     (s.pdu.sweep = .sweeping → s.pdu.extract.length < 56 → s.pdu.waiters = [] →
       (s.stu.capacity ≤ s.pdu.cursor → exec .sweepVisit s = .next (State.raise
         { s with pdu := { s.pdu with sweep := .idle } } (.periodClosed s.pdu.period s.pdu.entries))) ∧
       (s.pdu.cursor < s.stu.capacity →
         ((s.stu.state ≠ .ready ∨ s.record? s.pdu.cursor = none ∨
             (∃ r, s.record? s.pdu.cursor = some r ∧ r.periodTag = s.pdu.period)) →
           exec .sweepVisit s = .next { s with pdu := { s.pdu with cursor := s.pdu.cursor + 1 } }) ∧
         (∀ r, s.stu.state = .ready → s.record? s.pdu.cursor = some r → r.periodTag ≠ s.pdu.period →
           exec .sweepVisit s = .next { s with
             stu := { s.stu with records := s.stu.records.put s.pdu.cursor { r with
               used := 0, delivered := 0, chars := 0, charge := 0, saturated := false, periodTag := s.pdu.period } }
             pdu := { s.pdu with
               cursor := s.pdu.cursor + 1
               entries := s.pdu.entries + 1
               extract := s.pdu.extract ++ [
                 { number := r.number, index := s.pdu.cursor, address := r.address, plan := r.plan,
                   period := r.periodTag, delivered := r.delivered, within := r.used, chars := r.chars,
                   charge := r.charge, saturated := r.saturated, pending := r.pending, closing := false }] } })))) ∧
  (∀ e : Entry, e.bytes.length = 28 ∧ e.bytes = nat3 e.number ++ nat2 e.index ++ nat3 e.address ++
    (match e.plan with | .prepaid _ => [0] | .account _ => [1]) ++ nat2 e.period ++ nat2 e.delivered ++ nat2 e.within ++
    nat3 e.chars ++ nat3 e.charge ++ nat3 e.pending ++
    (match e.plan with | .prepaid balance => nat3 balance | .account ceiling => nat3 ceiling) ++
    [(if e.saturated then 1#8 else 0#8) ||| (if e.closing then 2#8 else 0#8)])

/-- EXTRACT_WAITER_TURN: nothing with an empty list or a full FIFO; else the operation at the head is taken anew whole
on the state as it stands, off the list, and keeps its place at the head when it still lacks room. An arbiter and an
expiry with no reason to act only leave the list; a closing entry, behind the old period's entry where the record
still carries the old tag and both have room, frees its record and ends the event that it holds; a TRAFFIC RESET counts
the record where the walk or a flush of the reset began that entry. (When the row is enabled, that a turn finds a take
barred by a waiting completion, which freed records a TRAFFIC RESET counts, and that an acceptance whose turn comes after
a TRAFFIC RESET is judged on the state then standing, are the model's readings, notes/assumptions/12.md,
notes/assumptions/13.md, notes/assumptions/26.md and notes/assumptions/39.md.) -/
def Obligations.WaiterTurnTakesHead : Prop :=
  (∀ s : State, (s.pdu.waiters = [] ∨ 64 ≤ s.pdu.extract.length) → exec .extractWaiterTurn s = .next s) ∧
  (∀ (s s' : State) (w : Waiter) (rest : List Waiter), s.pdu.waiters = w :: rest → s.pdu.extract.length < 64 →
    s' = { s with pdu := { s.pdu with waiters := rest } } →
    (∀ n, w = .line n → exec .extractWaiterTurn s = .next (s'.acceptLine true n).afterTraffic) ∧
    (∀ place c t result params, w = .command place c → s'.retake place c = (t, .now result params) →
      exec .extractWaiterTurn s = .next (t.complete place result params).afterTraffic) ∧
    (∀ place c t, w = .command place c → s'.retake place c = (t, .later) →
      exec .extractWaiterTurn s = .next t.afterTraffic) ∧
    (w = .arbiter → s'.takeAllowed = false → exec .extractWaiterTurn s = .next s'.afterTraffic) ∧
    (w = .arbiter → s'.takeAllowed = true → exec .extractWaiterTurn s = .next (s'.take true).afterTraffic) ∧
    (w = .completion → exec .extractWaiterTurn s = .next (s'.completeFrame true).afterTraffic) ∧
    (∀ l, w = .report l → exec .extractWaiterTurn s = .next (s'.takeReport true l).afterTraffic) ∧
    (w = .expiry → s'.dueHead = none → exec .extractWaiterTurn s = .next s'.afterTraffic) ∧
    (w = .expiry → s'.dueHead.isSome = true → exec .extractWaiterTurn s = .next (s'.expire true).afterTraffic) ∧
    (w = .walk → exec .extractWaiterTurn s = .next (s'.flushStep true).afterTraffic) ∧
    (∀ i holder r old, w = .closing i holder → s.record? i = some r →
      old = (s.pdu.sweep ≠ .idle && r.periodTag ≠ s.pdu.period) →
      (old = true → s.pdu.extract.length = 63 → exec .extractWaiterTurn s = .next s.afterTraffic) ∧
      ((old = false ∨ s.pdu.extract.length < 63) → ∃ u : State,
        exec .extractWaiterTurn s = .next u.afterTraffic ∧
        u.record? i = none ∧ (∀ j, j ≠ i → u.record? j = s.record? j) ∧
        (∀ b, chainAt u.stu.addressIndex b = if b = s.stu.addressBucket r.address
          then (chainAt s.stu.addressIndex b).erase i else chainAt s.stu.addressIndex b) ∧
        u.stu.free.toList = i :: s.stu.free.toList ∧ u.stu.freeCount = s.stu.freeCount + 1 ∧ u.pdu.waiters = rest ∧
        (s.clu.notices.length < 32 → u.clu.notices = s.clu.notices ++ [⟨.recordFreed i r.number, s.pdu.tick⟩]) ∧
        (old = true → u.pdu.entries = s.pdu.entries + 1 ∧ u.pdu.extract = s.pdu.extract ++ [
          { number := r.number, index := i, address := r.address, plan := r.plan, period := r.periodTag,
            delivered := r.delivered, within := r.used, chars := r.chars, charge := r.charge,
            saturated := r.saturated, pending := r.pending, closing := false },
          { number := r.number, index := i, address := r.address, plan := r.plan, period := s.pdu.period,
            delivered := 0, within := 0, chars := 0, charge := 0, saturated := false, pending := r.pending,
            closing := true }]) ∧
        (old = false → u.pdu.entries = s.pdu.entries ∧ u.pdu.extract = s.pdu.extract ++ [
          { number := r.number, index := i, address := r.address, plan := r.plan, period := r.periodTag,
            delivered := r.delivered, within := r.used, chars := r.chars, charge := r.charge,
            saturated := r.saturated, pending := r.pending, closing := true }]) ∧
        (∀ place params g, holder = .answer place params →
          s.clu.inProgress.find? (fun g => g.place == place) = some g →
          u.clu.responses = s.clu.responses ++ [⟨g.code, g.tag, .ok, params⟩] ∧
          u.clu.inProgress = s.clu.inProgress.erase g) ∧
        ((∀ place params, holder ≠ .answer place params) →
          u.clu.responses = s.clu.responses ∧ u.clu.inProgress = s.clu.inProgress) ∧
        (∀ l, (u.receiver l).fifo = if holder = .report l then (s.receiver l).fifo.tail else (s.receiver l).fifo) ∧
        u.msu = { s.msu with flush := match holder with
          | .walk => s.msu.flush.map fun f => { f with cursor := f.cursor + 1, freed := f.freed + 1 }
          | .alone true => s.msu.flush.map fun f => { f with freed := f.freed + 1 }
          | _ => s.msu.flush })))

/-- What an event that touches traffic ends with: nothing where nothing is allowed; and, with a rotation order of the
three queues, no take, move, outage mark, restored zone, reset completion or sweep resumption left over, with the
settings, the lines, the links and the period untouched. A TRAFFIC RESET whose three things hold together ends: its mark
is cleared and its command answers OK with the slots flushed and the records freed; no other response is made. A live set
that is not empty clears the outage mark, with ZONE RESTORED and that set before any other notice; with no live zone the
mark is set, with ZONE OUTAGE, when traffic waits behind an empty staging buffer, be it one that the move of this event
empties. A full notice FIFO takes neither. (The order of these inside the event is the model's reading,
notes/assumptions/7.md; so is a live set clearing the outage mark during a TRAFFIC RESET, notes/assumptions/40.md.) -/
def Obligations.AfterTraffic : Prop :=
  (∀ s : State, s.takeAllowed = false → s.moveAllowed = false → s.outageDue = false →
    (s.dsu.outage = false ∨ s.liveZones = 0) → (∀ f, s.msu.flush = some f → s.resetDone f = false) →
    (s.pdu.sweep ≠ .stalled ∨ 56 ≤ s.pdu.extract.length ∨ s.pdu.waiters ≠ []) → s.afterTraffic = s) ∧
  (∀ s t : State, t = s.afterTraffic → s.dsu.rotationGood = true →
    ¬ (t.dsu.staging = none ∧ t.dsu.queues ≠ ⟨[], [], [], []⟩ ∧ t.liveZones ≠ 0 ∧ t.msu.flush = none ∧
      Waiter.arbiter ∉ t.pdu.waiters ∧ Waiter.completion ∉ t.pdu.waiters) ∧
    ¬ (t.dsu.staging.isSome = true ∧ t.dsu.sending = none ∧ t.pins.ready = true ∧ t.pins.ehold = false ∧
      t.dsu.hold = false ∧ t.msu.flush = none) ∧
    ¬ (t.dsu.outage = false ∧ t.liveZones = 0 ∧ t.dsu.staging = none ∧ t.dsu.queues ≠ ⟨[], [], [], []⟩ ∧
      t.msu.flush = none) ∧
    ¬ (t.dsu.outage = true ∧ t.liveZones ≠ 0) ∧ (∀ f, t.msu.flush = some f → t.resetDone f = false) ∧
    ¬ (t.pdu.sweep = .stalled ∧ t.pdu.extract.length < 56 ∧ t.pdu.waiters = [])) ∧
  (∀ s t : State, t = s.afterTraffic →
    t.pins = s.pins ∧ t.chu = s.chu ∧ t.lines = s.lines ∧ t.rla = s.rla ∧ t.rlb = s.rlb ∧ t.pending = s.pending ∧
    t.dsu.mode = s.dsu.mode ∧ t.dsu.overrides = s.dsu.overrides ∧ t.dsu.service = s.dsu.service ∧
    t.dsu.hold = s.dsu.hold ∧ t.dsu.divider = s.dsu.divider ∧ t.aru.w0 = s.aru.w0 ∧ t.aru.aMax = s.aru.aMax ∧
    t.aru.hold = s.aru.hold ∧ t.pdu.period = s.pdu.period ∧ t.pdu.tick = s.pdu.tick ∧ t.pdu.minute = s.pdu.minute ∧
    t.stu.state = s.stu.state ∧ t.stu.capacity = s.stu.capacity ∧ t.stu.numberIndex = s.stu.numberIndex ∧
    t.clu.exchange = s.clu.exchange ∧ t.clu.queue = s.clu.queue ∧ t.clu.resetSeen = s.clu.resetSeen ∧
    t.clu.dropped = s.clu.dropped) ∧
  (∀ s t : State, t = s.afterTraffic →
    (∀ f g, s.msu.flush = some f → 2048 ≤ f.cursor → s.dsu.sending = none →
      (∀ i, Waiter.closing i .walk ∉ s.pdu.waiters ∧ Waiter.closing i (.alone true) ∉ s.pdu.waiters) →
      s.clu.inProgress.find? (fun g => g.place == f.place) = some g →
      t.msu.flush = none ∧ t.clu.inProgress = s.clu.inProgress.erase g ∧
      t.clu.responses = s.clu.responses ++ [⟨g.code, g.tag, .ok, nat2 f.flushed ++ nat2 f.freed⟩]) ∧
    ((s.msu.flush = none ∨ ∃ f, s.msu.flush = some f ∧ (f.cursor < 2048 ∨ s.dsu.sending.isSome = true ∨
        ∃ i, Waiter.closing i .walk ∈ s.pdu.waiters ∨ Waiter.closing i (.alone true) ∈ s.pdu.waiters)) →
      t.msu.flush = s.msu.flush ∧ t.clu.inProgress = s.clu.inProgress ∧ t.clu.responses = s.clu.responses)) ∧
  (∀ (s t : State) (outage : Prop), t = s.afterTraffic →
    (outage ↔ s.dsu.outage = false ∧ s.dsu.queues ≠ ⟨[], [], [], []⟩ ∧
      (s.msu.flush = none ∨ ∃ f, s.msu.flush = some f ∧ 2048 ≤ f.cursor ∧ s.dsu.sending = none ∧
        ∀ i, Waiter.closing i .walk ∉ s.pdu.waiters ∧ Waiter.closing i (.alone true) ∉ s.pdu.waiters) ∧
      (s.dsu.staging = none ∨ (s.dsu.sending = none ∧ s.pins.ready = true ∧ s.pins.ehold = false ∧
        s.dsu.hold = false))) →
    (s.liveZones = 0 →
      (outage → t.dsu.outage = true ∧
        (s.clu.notices.length < 32 → t.clu.notices = s.clu.notices ++ [⟨.zoneOutage, s.pdu.tick⟩]) ∧
        (32 ≤ s.clu.notices.length → t.clu.notices = s.clu.notices ∧ t.clu.overflow = true)) ∧
      (¬ outage → t.dsu.outage = s.dsu.outage ∧ t.clu.notices = s.clu.notices)) ∧
    (s.liveZones ≠ 0 → t.dsu.outage = false ∧
      ∃ more, (∀ x ∈ more, x.kind ≠ .zoneOutage ∧ ∀ z, x.kind ≠ .zoneRestored z) ∧
        (s.clu.notices.length < 32 → t.clu.notices = s.clu.notices ++
          (if s.dsu.outage then [⟨.zoneRestored s.liveZones, s.pdu.tick⟩] else []) ++ more) ∧
        (32 ≤ s.clu.notices.length → t.clu.notices = s.clu.notices ∧
          (s.dsu.outage = true → t.clu.overflow = true))))

/-! ## What every step keeps of the records and the slots -/

/-- Every step keeps: each record in the indexes that its state gives, with no two under one key (R5); each slot in
exactly one place, the one its state names, and in its owner's live list, with its own tag there, and in the held list
exactly when HELD (R31, R38); each record's pending the sum of the charges reserved for its live slots (R62); both free
lists, their counts and the low-water state (R10, R33, R36); each closing-pending mark with its one closing entry that
waits (R24); and no record while the table is not READY (R2; notes/assumptions/24.md). -/
def Obligations.StepKeepsStore : Prop :=
  ∀ s t : State, s.canonical = true → s.storeGood = true → step s = .next t → t.storeGood = true
end

