-- ==== Sys2Proof/Laws/State.lean ====
section
/-! SUPPORT. One lemma per field per update: what each named update of the state leaves unchanged, and what it writes.
Later proofs cite these and never unfold a record update. -/

namespace Sys2Proof.Machine
open Sys2Proof

/-! ### putRecord -/

@[simp] theorem State.putRecord_pins (s : State) (i : Nat) (r : Record) : (s.putRecord i r).pins = s.pins := rfl
@[simp] theorem State.putRecord_msu (s : State) (i : Nat) (r : Record) : (s.putRecord i r).msu = s.msu := rfl
@[simp] theorem State.putRecord_chu (s : State) (i : Nat) (r : Record) : (s.putRecord i r).chu = s.chu := rfl
@[simp] theorem State.putRecord_lines (s : State) (i : Nat) (r : Record) : (s.putRecord i r).lines = s.lines := rfl
@[simp] theorem State.putRecord_dsu (s : State) (i : Nat) (r : Record) : (s.putRecord i r).dsu = s.dsu := rfl
@[simp] theorem State.putRecord_rla (s : State) (i : Nat) (r : Record) : (s.putRecord i r).rla = s.rla := rfl
@[simp] theorem State.putRecord_rlb (s : State) (i : Nat) (r : Record) : (s.putRecord i r).rlb = s.rlb := rfl
@[simp] theorem State.putRecord_aru (s : State) (i : Nat) (r : Record) : (s.putRecord i r).aru = s.aru := rfl
@[simp] theorem State.putRecord_pdu (s : State) (i : Nat) (r : Record) : (s.putRecord i r).pdu = s.pdu := rfl
@[simp] theorem State.putRecord_clu (s : State) (i : Nat) (r : Record) : (s.putRecord i r).clu = s.clu := rfl
@[simp] theorem State.putRecord_pending (s : State) (i : Nat) (r : Record) : (s.putRecord i r).pending = s.pending := rfl

/-! ### dropRecord -/

@[simp] theorem State.dropRecord_pins (s : State) (i : Nat) : (s.dropRecord i).pins = s.pins := rfl
@[simp] theorem State.dropRecord_msu (s : State) (i : Nat) : (s.dropRecord i).msu = s.msu := rfl
@[simp] theorem State.dropRecord_chu (s : State) (i : Nat) : (s.dropRecord i).chu = s.chu := rfl
@[simp] theorem State.dropRecord_lines (s : State) (i : Nat) : (s.dropRecord i).lines = s.lines := rfl
@[simp] theorem State.dropRecord_dsu (s : State) (i : Nat) : (s.dropRecord i).dsu = s.dsu := rfl
@[simp] theorem State.dropRecord_rla (s : State) (i : Nat) : (s.dropRecord i).rla = s.rla := rfl
@[simp] theorem State.dropRecord_rlb (s : State) (i : Nat) : (s.dropRecord i).rlb = s.rlb := rfl
@[simp] theorem State.dropRecord_aru (s : State) (i : Nat) : (s.dropRecord i).aru = s.aru := rfl
@[simp] theorem State.dropRecord_pdu (s : State) (i : Nat) : (s.dropRecord i).pdu = s.pdu := rfl
@[simp] theorem State.dropRecord_clu (s : State) (i : Nat) : (s.dropRecord i).clu = s.clu := rfl
@[simp] theorem State.dropRecord_pending (s : State) (i : Nat) : (s.dropRecord i).pending = s.pending := rfl

/-! ### updateRecord -/

@[simp] theorem State.updateRecord_pins (s : State) (i : Nat) (f : Record → Record) : (s.updateRecord i f).pins = s.pins := by unfold State.updateRecord; split <;> rfl
@[simp] theorem State.updateRecord_msu (s : State) (i : Nat) (f : Record → Record) : (s.updateRecord i f).msu = s.msu := by unfold State.updateRecord; split <;> rfl
@[simp] theorem State.updateRecord_chu (s : State) (i : Nat) (f : Record → Record) : (s.updateRecord i f).chu = s.chu := by unfold State.updateRecord; split <;> rfl
@[simp] theorem State.updateRecord_lines (s : State) (i : Nat) (f : Record → Record) : (s.updateRecord i f).lines = s.lines := by unfold State.updateRecord; split <;> rfl
@[simp] theorem State.updateRecord_dsu (s : State) (i : Nat) (f : Record → Record) : (s.updateRecord i f).dsu = s.dsu := by unfold State.updateRecord; split <;> rfl
@[simp] theorem State.updateRecord_rla (s : State) (i : Nat) (f : Record → Record) : (s.updateRecord i f).rla = s.rla := by unfold State.updateRecord; split <;> rfl
@[simp] theorem State.updateRecord_rlb (s : State) (i : Nat) (f : Record → Record) : (s.updateRecord i f).rlb = s.rlb := by unfold State.updateRecord; split <;> rfl
@[simp] theorem State.updateRecord_aru (s : State) (i : Nat) (f : Record → Record) : (s.updateRecord i f).aru = s.aru := by unfold State.updateRecord; split <;> rfl
@[simp] theorem State.updateRecord_pdu (s : State) (i : Nat) (f : Record → Record) : (s.updateRecord i f).pdu = s.pdu := by unfold State.updateRecord; split <;> rfl
@[simp] theorem State.updateRecord_clu (s : State) (i : Nat) (f : Record → Record) : (s.updateRecord i f).clu = s.clu := by unfold State.updateRecord; split <;> rfl
@[simp] theorem State.updateRecord_pending (s : State) (i : Nat) (f : Record → Record) : (s.updateRecord i f).pending = s.pending := by unfold State.updateRecord; split <;> rfl

/-! ### putSlot -/

@[simp] theorem State.putSlot_pins (s : State) (n : Nat) (v : Slot) : (s.putSlot n v).pins = s.pins := rfl
@[simp] theorem State.putSlot_stu (s : State) (n : Nat) (v : Slot) : (s.putSlot n v).stu = s.stu := rfl
@[simp] theorem State.putSlot_chu (s : State) (n : Nat) (v : Slot) : (s.putSlot n v).chu = s.chu := rfl
@[simp] theorem State.putSlot_lines (s : State) (n : Nat) (v : Slot) : (s.putSlot n v).lines = s.lines := rfl
@[simp] theorem State.putSlot_dsu (s : State) (n : Nat) (v : Slot) : (s.putSlot n v).dsu = s.dsu := rfl
@[simp] theorem State.putSlot_rla (s : State) (n : Nat) (v : Slot) : (s.putSlot n v).rla = s.rla := rfl
@[simp] theorem State.putSlot_rlb (s : State) (n : Nat) (v : Slot) : (s.putSlot n v).rlb = s.rlb := rfl
@[simp] theorem State.putSlot_aru (s : State) (n : Nat) (v : Slot) : (s.putSlot n v).aru = s.aru := rfl
@[simp] theorem State.putSlot_pdu (s : State) (n : Nat) (v : Slot) : (s.putSlot n v).pdu = s.pdu := rfl
@[simp] theorem State.putSlot_clu (s : State) (n : Nat) (v : Slot) : (s.putSlot n v).clu = s.clu := rfl
@[simp] theorem State.putSlot_pending (s : State) (n : Nat) (v : Slot) : (s.putSlot n v).pending = s.pending := rfl

/-! ### updateMessage -/

@[simp] theorem State.updateMessage_pins (s : State) (n : Nat) (f : Message → Message) : (s.updateMessage n f).pins = s.pins := by unfold State.updateMessage; split <;> rfl
@[simp] theorem State.updateMessage_stu (s : State) (n : Nat) (f : Message → Message) : (s.updateMessage n f).stu = s.stu := by unfold State.updateMessage; split <;> rfl
@[simp] theorem State.updateMessage_chu (s : State) (n : Nat) (f : Message → Message) : (s.updateMessage n f).chu = s.chu := by unfold State.updateMessage; split <;> rfl
@[simp] theorem State.updateMessage_lines (s : State) (n : Nat) (f : Message → Message) : (s.updateMessage n f).lines = s.lines := by unfold State.updateMessage; split <;> rfl
@[simp] theorem State.updateMessage_dsu (s : State) (n : Nat) (f : Message → Message) : (s.updateMessage n f).dsu = s.dsu := by unfold State.updateMessage; split <;> rfl
@[simp] theorem State.updateMessage_rla (s : State) (n : Nat) (f : Message → Message) : (s.updateMessage n f).rla = s.rla := by unfold State.updateMessage; split <;> rfl
@[simp] theorem State.updateMessage_rlb (s : State) (n : Nat) (f : Message → Message) : (s.updateMessage n f).rlb = s.rlb := by unfold State.updateMessage; split <;> rfl
@[simp] theorem State.updateMessage_aru (s : State) (n : Nat) (f : Message → Message) : (s.updateMessage n f).aru = s.aru := by unfold State.updateMessage; split <;> rfl
@[simp] theorem State.updateMessage_pdu (s : State) (n : Nat) (f : Message → Message) : (s.updateMessage n f).pdu = s.pdu := by unfold State.updateMessage; split <;> rfl
@[simp] theorem State.updateMessage_clu (s : State) (n : Nat) (f : Message → Message) : (s.updateMessage n f).clu = s.clu := by unfold State.updateMessage; split <;> rfl
@[simp] theorem State.updateMessage_pending (s : State) (n : Nat) (f : Message → Message) : (s.updateMessage n f).pending = s.pending := by unfold State.updateMessage; split <;> rfl

/-! ### linkNumber -/

@[simp] theorem State.linkNumber_pins (s : State) (k i : Nat) : (s.linkNumber k i).pins = s.pins := rfl
@[simp] theorem State.linkNumber_msu (s : State) (k i : Nat) : (s.linkNumber k i).msu = s.msu := rfl
@[simp] theorem State.linkNumber_chu (s : State) (k i : Nat) : (s.linkNumber k i).chu = s.chu := rfl
@[simp] theorem State.linkNumber_lines (s : State) (k i : Nat) : (s.linkNumber k i).lines = s.lines := rfl
@[simp] theorem State.linkNumber_dsu (s : State) (k i : Nat) : (s.linkNumber k i).dsu = s.dsu := rfl
@[simp] theorem State.linkNumber_rla (s : State) (k i : Nat) : (s.linkNumber k i).rla = s.rla := rfl
@[simp] theorem State.linkNumber_rlb (s : State) (k i : Nat) : (s.linkNumber k i).rlb = s.rlb := rfl
@[simp] theorem State.linkNumber_aru (s : State) (k i : Nat) : (s.linkNumber k i).aru = s.aru := rfl
@[simp] theorem State.linkNumber_pdu (s : State) (k i : Nat) : (s.linkNumber k i).pdu = s.pdu := rfl
@[simp] theorem State.linkNumber_clu (s : State) (k i : Nat) : (s.linkNumber k i).clu = s.clu := rfl
@[simp] theorem State.linkNumber_pending (s : State) (k i : Nat) : (s.linkNumber k i).pending = s.pending := rfl

/-! ### unlinkNumber -/

@[simp] theorem State.unlinkNumber_pins (s : State) (k i : Nat) : (s.unlinkNumber k i).pins = s.pins := rfl
@[simp] theorem State.unlinkNumber_msu (s : State) (k i : Nat) : (s.unlinkNumber k i).msu = s.msu := rfl
@[simp] theorem State.unlinkNumber_chu (s : State) (k i : Nat) : (s.unlinkNumber k i).chu = s.chu := rfl
@[simp] theorem State.unlinkNumber_lines (s : State) (k i : Nat) : (s.unlinkNumber k i).lines = s.lines := rfl
@[simp] theorem State.unlinkNumber_dsu (s : State) (k i : Nat) : (s.unlinkNumber k i).dsu = s.dsu := rfl
@[simp] theorem State.unlinkNumber_rla (s : State) (k i : Nat) : (s.unlinkNumber k i).rla = s.rla := rfl
@[simp] theorem State.unlinkNumber_rlb (s : State) (k i : Nat) : (s.unlinkNumber k i).rlb = s.rlb := rfl
@[simp] theorem State.unlinkNumber_aru (s : State) (k i : Nat) : (s.unlinkNumber k i).aru = s.aru := rfl
@[simp] theorem State.unlinkNumber_pdu (s : State) (k i : Nat) : (s.unlinkNumber k i).pdu = s.pdu := rfl
@[simp] theorem State.unlinkNumber_clu (s : State) (k i : Nat) : (s.unlinkNumber k i).clu = s.clu := rfl
@[simp] theorem State.unlinkNumber_pending (s : State) (k i : Nat) : (s.unlinkNumber k i).pending = s.pending := rfl

/-! ### linkAddress -/

@[simp] theorem State.linkAddress_pins (s : State) (k i : Nat) : (s.linkAddress k i).pins = s.pins := rfl
@[simp] theorem State.linkAddress_msu (s : State) (k i : Nat) : (s.linkAddress k i).msu = s.msu := rfl
@[simp] theorem State.linkAddress_chu (s : State) (k i : Nat) : (s.linkAddress k i).chu = s.chu := rfl
@[simp] theorem State.linkAddress_lines (s : State) (k i : Nat) : (s.linkAddress k i).lines = s.lines := rfl
@[simp] theorem State.linkAddress_dsu (s : State) (k i : Nat) : (s.linkAddress k i).dsu = s.dsu := rfl
@[simp] theorem State.linkAddress_rla (s : State) (k i : Nat) : (s.linkAddress k i).rla = s.rla := rfl
@[simp] theorem State.linkAddress_rlb (s : State) (k i : Nat) : (s.linkAddress k i).rlb = s.rlb := rfl
@[simp] theorem State.linkAddress_aru (s : State) (k i : Nat) : (s.linkAddress k i).aru = s.aru := rfl
@[simp] theorem State.linkAddress_pdu (s : State) (k i : Nat) : (s.linkAddress k i).pdu = s.pdu := rfl
@[simp] theorem State.linkAddress_clu (s : State) (k i : Nat) : (s.linkAddress k i).clu = s.clu := rfl
@[simp] theorem State.linkAddress_pending (s : State) (k i : Nat) : (s.linkAddress k i).pending = s.pending := rfl

/-! ### unlinkAddress -/

@[simp] theorem State.unlinkAddress_pins (s : State) (k i : Nat) : (s.unlinkAddress k i).pins = s.pins := rfl
@[simp] theorem State.unlinkAddress_msu (s : State) (k i : Nat) : (s.unlinkAddress k i).msu = s.msu := rfl
@[simp] theorem State.unlinkAddress_chu (s : State) (k i : Nat) : (s.unlinkAddress k i).chu = s.chu := rfl
@[simp] theorem State.unlinkAddress_lines (s : State) (k i : Nat) : (s.unlinkAddress k i).lines = s.lines := rfl
@[simp] theorem State.unlinkAddress_dsu (s : State) (k i : Nat) : (s.unlinkAddress k i).dsu = s.dsu := rfl
@[simp] theorem State.unlinkAddress_rla (s : State) (k i : Nat) : (s.unlinkAddress k i).rla = s.rla := rfl
@[simp] theorem State.unlinkAddress_rlb (s : State) (k i : Nat) : (s.unlinkAddress k i).rlb = s.rlb := rfl
@[simp] theorem State.unlinkAddress_aru (s : State) (k i : Nat) : (s.unlinkAddress k i).aru = s.aru := rfl
@[simp] theorem State.unlinkAddress_pdu (s : State) (k i : Nat) : (s.unlinkAddress k i).pdu = s.pdu := rfl
@[simp] theorem State.unlinkAddress_clu (s : State) (k i : Nat) : (s.unlinkAddress k i).clu = s.clu := rfl
@[simp] theorem State.unlinkAddress_pending (s : State) (k i : Nat) : (s.unlinkAddress k i).pending = s.pending := rfl

/-! ### moveNumber -/

@[simp] theorem State.moveNumber_pins (s : State) (i old new : Nat) : (s.moveNumber i old new).pins = s.pins := by unfold State.moveNumber; split <;> rfl
@[simp] theorem State.moveNumber_msu (s : State) (i old new : Nat) : (s.moveNumber i old new).msu = s.msu := by unfold State.moveNumber; split <;> rfl
@[simp] theorem State.moveNumber_chu (s : State) (i old new : Nat) : (s.moveNumber i old new).chu = s.chu := by unfold State.moveNumber; split <;> rfl
@[simp] theorem State.moveNumber_lines (s : State) (i old new : Nat) : (s.moveNumber i old new).lines = s.lines := by unfold State.moveNumber; split <;> rfl
@[simp] theorem State.moveNumber_dsu (s : State) (i old new : Nat) : (s.moveNumber i old new).dsu = s.dsu := by unfold State.moveNumber; split <;> rfl
@[simp] theorem State.moveNumber_rla (s : State) (i old new : Nat) : (s.moveNumber i old new).rla = s.rla := by unfold State.moveNumber; split <;> rfl
@[simp] theorem State.moveNumber_rlb (s : State) (i old new : Nat) : (s.moveNumber i old new).rlb = s.rlb := by unfold State.moveNumber; split <;> rfl
@[simp] theorem State.moveNumber_aru (s : State) (i old new : Nat) : (s.moveNumber i old new).aru = s.aru := by unfold State.moveNumber; split <;> rfl
@[simp] theorem State.moveNumber_pdu (s : State) (i old new : Nat) : (s.moveNumber i old new).pdu = s.pdu := by unfold State.moveNumber; split <;> rfl
@[simp] theorem State.moveNumber_clu (s : State) (i old new : Nat) : (s.moveNumber i old new).clu = s.clu := by unfold State.moveNumber; split <;> rfl
@[simp] theorem State.moveNumber_pending (s : State) (i old new : Nat) : (s.moveNumber i old new).pending = s.pending := by unfold State.moveNumber; split <;> rfl

/-! ### moveAddress -/

@[simp] theorem State.moveAddress_pins (s : State) (i old new : Nat) : (s.moveAddress i old new).pins = s.pins := by unfold State.moveAddress; split <;> rfl
@[simp] theorem State.moveAddress_msu (s : State) (i old new : Nat) : (s.moveAddress i old new).msu = s.msu := by unfold State.moveAddress; split <;> rfl
@[simp] theorem State.moveAddress_chu (s : State) (i old new : Nat) : (s.moveAddress i old new).chu = s.chu := by unfold State.moveAddress; split <;> rfl
@[simp] theorem State.moveAddress_lines (s : State) (i old new : Nat) : (s.moveAddress i old new).lines = s.lines := by unfold State.moveAddress; split <;> rfl
@[simp] theorem State.moveAddress_dsu (s : State) (i old new : Nat) : (s.moveAddress i old new).dsu = s.dsu := by unfold State.moveAddress; split <;> rfl
@[simp] theorem State.moveAddress_rla (s : State) (i old new : Nat) : (s.moveAddress i old new).rla = s.rla := by unfold State.moveAddress; split <;> rfl
@[simp] theorem State.moveAddress_rlb (s : State) (i old new : Nat) : (s.moveAddress i old new).rlb = s.rlb := by unfold State.moveAddress; split <;> rfl
@[simp] theorem State.moveAddress_aru (s : State) (i old new : Nat) : (s.moveAddress i old new).aru = s.aru := by unfold State.moveAddress; split <;> rfl
@[simp] theorem State.moveAddress_pdu (s : State) (i old new : Nat) : (s.moveAddress i old new).pdu = s.pdu := by unfold State.moveAddress; split <;> rfl
@[simp] theorem State.moveAddress_clu (s : State) (i old new : Nat) : (s.moveAddress i old new).clu = s.clu := by unfold State.moveAddress; split <;> rfl
@[simp] theorem State.moveAddress_pending (s : State) (i old new : Nat) : (s.moveAddress i old new).pending = s.pending := by unfold State.moveAddress; split <;> rfl

/-! ### enqueue -/

@[simp] theorem State.enqueue_pins (s : State) (q : QueueName) (n : Nat) : (s.enqueue q n).pins = s.pins := rfl
@[simp] theorem State.enqueue_stu (s : State) (q : QueueName) (n : Nat) : (s.enqueue q n).stu = s.stu := rfl
@[simp] theorem State.enqueue_msu (s : State) (q : QueueName) (n : Nat) : (s.enqueue q n).msu = s.msu := rfl
@[simp] theorem State.enqueue_chu (s : State) (q : QueueName) (n : Nat) : (s.enqueue q n).chu = s.chu := rfl
@[simp] theorem State.enqueue_lines (s : State) (q : QueueName) (n : Nat) : (s.enqueue q n).lines = s.lines := rfl
@[simp] theorem State.enqueue_rla (s : State) (q : QueueName) (n : Nat) : (s.enqueue q n).rla = s.rla := rfl
@[simp] theorem State.enqueue_rlb (s : State) (q : QueueName) (n : Nat) : (s.enqueue q n).rlb = s.rlb := rfl
@[simp] theorem State.enqueue_aru (s : State) (q : QueueName) (n : Nat) : (s.enqueue q n).aru = s.aru := rfl
@[simp] theorem State.enqueue_pdu (s : State) (q : QueueName) (n : Nat) : (s.enqueue q n).pdu = s.pdu := rfl
@[simp] theorem State.enqueue_clu (s : State) (q : QueueName) (n : Nat) : (s.enqueue q n).clu = s.clu := rfl
@[simp] theorem State.enqueue_pending (s : State) (q : QueueName) (n : Nat) : (s.enqueue q n).pending = s.pending := rfl

/-! ### requeue -/

@[simp] theorem State.requeue_pins (s : State) (q : QueueName) (n : Nat) : (s.requeue q n).pins = s.pins := rfl
@[simp] theorem State.requeue_stu (s : State) (q : QueueName) (n : Nat) : (s.requeue q n).stu = s.stu := rfl
@[simp] theorem State.requeue_msu (s : State) (q : QueueName) (n : Nat) : (s.requeue q n).msu = s.msu := rfl
@[simp] theorem State.requeue_chu (s : State) (q : QueueName) (n : Nat) : (s.requeue q n).chu = s.chu := rfl
@[simp] theorem State.requeue_lines (s : State) (q : QueueName) (n : Nat) : (s.requeue q n).lines = s.lines := rfl
@[simp] theorem State.requeue_rla (s : State) (q : QueueName) (n : Nat) : (s.requeue q n).rla = s.rla := rfl
@[simp] theorem State.requeue_rlb (s : State) (q : QueueName) (n : Nat) : (s.requeue q n).rlb = s.rlb := rfl
@[simp] theorem State.requeue_aru (s : State) (q : QueueName) (n : Nat) : (s.requeue q n).aru = s.aru := rfl
@[simp] theorem State.requeue_pdu (s : State) (q : QueueName) (n : Nat) : (s.requeue q n).pdu = s.pdu := rfl
@[simp] theorem State.requeue_clu (s : State) (q : QueueName) (n : Nat) : (s.requeue q n).clu = s.clu := rfl
@[simp] theorem State.requeue_pending (s : State) (q : QueueName) (n : Nat) : (s.requeue q n).pending = s.pending := rfl

/-! ### putLine -/

@[simp] theorem State.putLine_pins (s : State) (n : Fin 4) (l : Line) : (s.putLine n l).pins = s.pins := rfl
@[simp] theorem State.putLine_stu (s : State) (n : Fin 4) (l : Line) : (s.putLine n l).stu = s.stu := rfl
@[simp] theorem State.putLine_msu (s : State) (n : Fin 4) (l : Line) : (s.putLine n l).msu = s.msu := rfl
@[simp] theorem State.putLine_chu (s : State) (n : Fin 4) (l : Line) : (s.putLine n l).chu = s.chu := rfl
@[simp] theorem State.putLine_dsu (s : State) (n : Fin 4) (l : Line) : (s.putLine n l).dsu = s.dsu := rfl
@[simp] theorem State.putLine_rla (s : State) (n : Fin 4) (l : Line) : (s.putLine n l).rla = s.rla := rfl
@[simp] theorem State.putLine_rlb (s : State) (n : Fin 4) (l : Line) : (s.putLine n l).rlb = s.rlb := rfl
@[simp] theorem State.putLine_aru (s : State) (n : Fin 4) (l : Line) : (s.putLine n l).aru = s.aru := rfl
@[simp] theorem State.putLine_pdu (s : State) (n : Fin 4) (l : Line) : (s.putLine n l).pdu = s.pdu := rfl
@[simp] theorem State.putLine_clu (s : State) (n : Fin 4) (l : Line) : (s.putLine n l).clu = s.clu := rfl
@[simp] theorem State.putLine_pending (s : State) (n : Fin 4) (l : Line) : (s.putLine n l).pending = s.pending := rfl

/-! ### putReceiver -/

@[simp] theorem State.putReceiver_pins (s : State) (l : Link) (r : Receiver) : (s.putReceiver l r).pins = s.pins := by cases l <;> rfl
@[simp] theorem State.putReceiver_stu (s : State) (l : Link) (r : Receiver) : (s.putReceiver l r).stu = s.stu := by cases l <;> rfl
@[simp] theorem State.putReceiver_msu (s : State) (l : Link) (r : Receiver) : (s.putReceiver l r).msu = s.msu := by cases l <;> rfl
@[simp] theorem State.putReceiver_chu (s : State) (l : Link) (r : Receiver) : (s.putReceiver l r).chu = s.chu := by cases l <;> rfl
@[simp] theorem State.putReceiver_lines (s : State) (l : Link) (r : Receiver) : (s.putReceiver l r).lines = s.lines := by cases l <;> rfl
@[simp] theorem State.putReceiver_dsu (s : State) (l : Link) (r : Receiver) : (s.putReceiver l r).dsu = s.dsu := by cases l <;> rfl
@[simp] theorem State.putReceiver_aru (s : State) (l : Link) (r : Receiver) : (s.putReceiver l r).aru = s.aru := by cases l <;> rfl
@[simp] theorem State.putReceiver_pdu (s : State) (l : Link) (r : Receiver) : (s.putReceiver l r).pdu = s.pdu := by cases l <;> rfl
@[simp] theorem State.putReceiver_clu (s : State) (l : Link) (r : Receiver) : (s.putReceiver l r).clu = s.clu := by cases l <;> rfl
@[simp] theorem State.putReceiver_pending (s : State) (l : Link) (r : Receiver) : (s.putReceiver l r).pending = s.pending := by cases l <;> rfl

/-! ### raise -/

@[simp] theorem State.raise_pins (s : State) (k : NoticeKind) : (s.raise k).pins = s.pins := by unfold State.raise; split <;> rfl
@[simp] theorem State.raise_stu (s : State) (k : NoticeKind) : (s.raise k).stu = s.stu := by unfold State.raise; split <;> rfl
@[simp] theorem State.raise_msu (s : State) (k : NoticeKind) : (s.raise k).msu = s.msu := by unfold State.raise; split <;> rfl
@[simp] theorem State.raise_chu (s : State) (k : NoticeKind) : (s.raise k).chu = s.chu := by unfold State.raise; split <;> rfl
@[simp] theorem State.raise_lines (s : State) (k : NoticeKind) : (s.raise k).lines = s.lines := by unfold State.raise; split <;> rfl
@[simp] theorem State.raise_dsu (s : State) (k : NoticeKind) : (s.raise k).dsu = s.dsu := by unfold State.raise; split <;> rfl
@[simp] theorem State.raise_rla (s : State) (k : NoticeKind) : (s.raise k).rla = s.rla := by unfold State.raise; split <;> rfl
@[simp] theorem State.raise_rlb (s : State) (k : NoticeKind) : (s.raise k).rlb = s.rlb := by unfold State.raise; split <;> rfl
@[simp] theorem State.raise_aru (s : State) (k : NoticeKind) : (s.raise k).aru = s.aru := by unfold State.raise; split <;> rfl
@[simp] theorem State.raise_pdu (s : State) (k : NoticeKind) : (s.raise k).pdu = s.pdu := by unfold State.raise; split <;> rfl
@[simp] theorem State.raise_pending (s : State) (k : NoticeKind) : (s.raise k).pending = s.pending := by unfold State.raise; split <;> rfl

/-! ### respond -/

@[simp] theorem State.respond_pins (s : State) (r : Response) : (s.respond r).pins = s.pins := rfl
@[simp] theorem State.respond_stu (s : State) (r : Response) : (s.respond r).stu = s.stu := rfl
@[simp] theorem State.respond_msu (s : State) (r : Response) : (s.respond r).msu = s.msu := rfl
@[simp] theorem State.respond_chu (s : State) (r : Response) : (s.respond r).chu = s.chu := rfl
@[simp] theorem State.respond_lines (s : State) (r : Response) : (s.respond r).lines = s.lines := rfl
@[simp] theorem State.respond_dsu (s : State) (r : Response) : (s.respond r).dsu = s.dsu := rfl
@[simp] theorem State.respond_rla (s : State) (r : Response) : (s.respond r).rla = s.rla := rfl
@[simp] theorem State.respond_rlb (s : State) (r : Response) : (s.respond r).rlb = s.rlb := rfl
@[simp] theorem State.respond_aru (s : State) (r : Response) : (s.respond r).aru = s.aru := rfl
@[simp] theorem State.respond_pdu (s : State) (r : Response) : (s.respond r).pdu = s.pdu := rfl
@[simp] theorem State.respond_pending (s : State) (r : Response) : (s.respond r).pending = s.pending := rfl

/-! ### complete -/

@[simp] theorem State.complete_pins (s : State) (place : Nat) (result : Result) (params : List Byte) : (s.complete place result params).pins = s.pins := by unfold State.complete; split <;> rfl
@[simp] theorem State.complete_stu (s : State) (place : Nat) (result : Result) (params : List Byte) : (s.complete place result params).stu = s.stu := by unfold State.complete; split <;> rfl
@[simp] theorem State.complete_msu (s : State) (place : Nat) (result : Result) (params : List Byte) : (s.complete place result params).msu = s.msu := by unfold State.complete; split <;> rfl
@[simp] theorem State.complete_chu (s : State) (place : Nat) (result : Result) (params : List Byte) : (s.complete place result params).chu = s.chu := by unfold State.complete; split <;> rfl
@[simp] theorem State.complete_lines (s : State) (place : Nat) (result : Result) (params : List Byte) : (s.complete place result params).lines = s.lines := by unfold State.complete; split <;> rfl
@[simp] theorem State.complete_dsu (s : State) (place : Nat) (result : Result) (params : List Byte) : (s.complete place result params).dsu = s.dsu := by unfold State.complete; split <;> rfl
@[simp] theorem State.complete_rla (s : State) (place : Nat) (result : Result) (params : List Byte) : (s.complete place result params).rla = s.rla := by unfold State.complete; split <;> rfl
@[simp] theorem State.complete_rlb (s : State) (place : Nat) (result : Result) (params : List Byte) : (s.complete place result params).rlb = s.rlb := by unfold State.complete; split <;> rfl
@[simp] theorem State.complete_aru (s : State) (place : Nat) (result : Result) (params : List Byte) : (s.complete place result params).aru = s.aru := by unfold State.complete; split <;> rfl
@[simp] theorem State.complete_pdu (s : State) (place : Nat) (result : Result) (params : List Byte) : (s.complete place result params).pdu = s.pdu := by unfold State.complete; split <;> rfl
@[simp] theorem State.complete_pending (s : State) (place : Nat) (result : Result) (params : List Byte) : (s.complete place result params).pending = s.pending := by unfold State.complete; split <;> rfl

/-! ### writeEntry -/

@[simp] theorem State.writeEntry_pins (s : State) (e : Entry) : (s.writeEntry e).pins = s.pins := by unfold State.writeEntry; split <;> rfl
@[simp] theorem State.writeEntry_stu (s : State) (e : Entry) : (s.writeEntry e).stu = s.stu := by unfold State.writeEntry; split <;> rfl
@[simp] theorem State.writeEntry_msu (s : State) (e : Entry) : (s.writeEntry e).msu = s.msu := by unfold State.writeEntry; split <;> rfl
@[simp] theorem State.writeEntry_chu (s : State) (e : Entry) : (s.writeEntry e).chu = s.chu := by unfold State.writeEntry; split <;> rfl
@[simp] theorem State.writeEntry_lines (s : State) (e : Entry) : (s.writeEntry e).lines = s.lines := by unfold State.writeEntry; split <;> rfl
@[simp] theorem State.writeEntry_dsu (s : State) (e : Entry) : (s.writeEntry e).dsu = s.dsu := by unfold State.writeEntry; split <;> rfl
@[simp] theorem State.writeEntry_rla (s : State) (e : Entry) : (s.writeEntry e).rla = s.rla := by unfold State.writeEntry; split <;> rfl
@[simp] theorem State.writeEntry_rlb (s : State) (e : Entry) : (s.writeEntry e).rlb = s.rlb := by unfold State.writeEntry; split <;> rfl
@[simp] theorem State.writeEntry_aru (s : State) (e : Entry) : (s.writeEntry e).aru = s.aru := by unfold State.writeEntry; split <;> rfl
@[simp] theorem State.writeEntry_clu (s : State) (e : Entry) : (s.writeEntry e).clu = s.clu := by unfold State.writeEntry; split <;> rfl
@[simp] theorem State.writeEntry_pending (s : State) (e : Entry) : (s.writeEntry e).pending = s.pending := by unfold State.writeEntry; split <;> rfl

/-! ### wait -/

@[simp] theorem State.wait_pins (s : State) (anew : Bool) (w : Waiter) : (s.wait anew w).pins = s.pins := rfl
@[simp] theorem State.wait_stu (s : State) (anew : Bool) (w : Waiter) : (s.wait anew w).stu = s.stu := rfl
@[simp] theorem State.wait_msu (s : State) (anew : Bool) (w : Waiter) : (s.wait anew w).msu = s.msu := rfl
@[simp] theorem State.wait_chu (s : State) (anew : Bool) (w : Waiter) : (s.wait anew w).chu = s.chu := rfl
@[simp] theorem State.wait_lines (s : State) (anew : Bool) (w : Waiter) : (s.wait anew w).lines = s.lines := rfl
@[simp] theorem State.wait_dsu (s : State) (anew : Bool) (w : Waiter) : (s.wait anew w).dsu = s.dsu := rfl
@[simp] theorem State.wait_rla (s : State) (anew : Bool) (w : Waiter) : (s.wait anew w).rla = s.rla := rfl
@[simp] theorem State.wait_rlb (s : State) (anew : Bool) (w : Waiter) : (s.wait anew w).rlb = s.rlb := rfl
@[simp] theorem State.wait_aru (s : State) (anew : Bool) (w : Waiter) : (s.wait anew w).aru = s.aru := rfl
@[simp] theorem State.wait_clu (s : State) (anew : Bool) (w : Waiter) : (s.wait anew w).clu = s.clu := rfl
@[simp] theorem State.wait_pending (s : State) (anew : Bool) (w : Waiter) : (s.wait anew w).pending = s.pending := rfl

/-! ### resumeSweep -/

@[simp] theorem State.resumeSweep_pins (s : State) : (s.resumeSweep).pins = s.pins := by unfold State.resumeSweep; split <;> rfl
@[simp] theorem State.resumeSweep_stu (s : State) : (s.resumeSweep).stu = s.stu := by unfold State.resumeSweep; split <;> rfl
@[simp] theorem State.resumeSweep_msu (s : State) : (s.resumeSweep).msu = s.msu := by unfold State.resumeSweep; split <;> rfl
@[simp] theorem State.resumeSweep_chu (s : State) : (s.resumeSweep).chu = s.chu := by unfold State.resumeSweep; split <;> rfl
@[simp] theorem State.resumeSweep_lines (s : State) : (s.resumeSweep).lines = s.lines := by unfold State.resumeSweep; split <;> rfl
@[simp] theorem State.resumeSweep_dsu (s : State) : (s.resumeSweep).dsu = s.dsu := by unfold State.resumeSweep; split <;> rfl
@[simp] theorem State.resumeSweep_rla (s : State) : (s.resumeSweep).rla = s.rla := by unfold State.resumeSweep; split <;> rfl
@[simp] theorem State.resumeSweep_rlb (s : State) : (s.resumeSweep).rlb = s.rlb := by unfold State.resumeSweep; split <;> rfl
@[simp] theorem State.resumeSweep_aru (s : State) : (s.resumeSweep).aru = s.aru := by unfold State.resumeSweep; split <;> rfl
@[simp] theorem State.resumeSweep_clu (s : State) : (s.resumeSweep).clu = s.clu := by unfold State.resumeSweep; split <;> rfl
@[simp] theorem State.resumeSweep_pending (s : State) : (s.resumeSweep).pending = s.pending := by unfold State.resumeSweep; split <;> rfl

/-! ### closeRecord -/

@[simp] theorem State.closeRecord_pins (s : State) (i : Nat) (r : Record) : (s.closeRecord i r).pins = s.pins := by simp [State.closeRecord]
@[simp] theorem State.closeRecord_msu (s : State) (i : Nat) (r : Record) : (s.closeRecord i r).msu = s.msu := by simp [State.closeRecord]
@[simp] theorem State.closeRecord_chu (s : State) (i : Nat) (r : Record) : (s.closeRecord i r).chu = s.chu := by simp [State.closeRecord]
@[simp] theorem State.closeRecord_lines (s : State) (i : Nat) (r : Record) : (s.closeRecord i r).lines = s.lines := by simp [State.closeRecord]
@[simp] theorem State.closeRecord_dsu (s : State) (i : Nat) (r : Record) : (s.closeRecord i r).dsu = s.dsu := by simp [State.closeRecord]
@[simp] theorem State.closeRecord_rla (s : State) (i : Nat) (r : Record) : (s.closeRecord i r).rla = s.rla := by simp [State.closeRecord]
@[simp] theorem State.closeRecord_rlb (s : State) (i : Nat) (r : Record) : (s.closeRecord i r).rlb = s.rlb := by simp [State.closeRecord]
@[simp] theorem State.closeRecord_aru (s : State) (i : Nat) (r : Record) : (s.closeRecord i r).aru = s.aru := by simp [State.closeRecord]
@[simp] theorem State.closeRecord_clu (s : State) (i : Nat) (r : Record) : (s.closeRecord i r).clu = s.clu := by simp [State.closeRecord]
@[simp] theorem State.closeRecord_pending (s : State) (i : Nat) (r : Record) : (s.closeRecord i r).pending = s.pending := by simp [State.closeRecord]

/-! ### releaseRecord -/

@[simp] theorem State.releaseRecord_pins (s : State) (i : Nat) (r : Record) : (s.releaseRecord i r).pins = s.pins := by simp [State.releaseRecord]
@[simp] theorem State.releaseRecord_msu (s : State) (i : Nat) (r : Record) : (s.releaseRecord i r).msu = s.msu := by simp [State.releaseRecord]
@[simp] theorem State.releaseRecord_chu (s : State) (i : Nat) (r : Record) : (s.releaseRecord i r).chu = s.chu := by simp [State.releaseRecord]
@[simp] theorem State.releaseRecord_lines (s : State) (i : Nat) (r : Record) : (s.releaseRecord i r).lines = s.lines := by simp [State.releaseRecord]
@[simp] theorem State.releaseRecord_dsu (s : State) (i : Nat) (r : Record) : (s.releaseRecord i r).dsu = s.dsu := by simp [State.releaseRecord]
@[simp] theorem State.releaseRecord_rla (s : State) (i : Nat) (r : Record) : (s.releaseRecord i r).rla = s.rla := by simp [State.releaseRecord]
@[simp] theorem State.releaseRecord_rlb (s : State) (i : Nat) (r : Record) : (s.releaseRecord i r).rlb = s.rlb := by simp [State.releaseRecord]
@[simp] theorem State.releaseRecord_aru (s : State) (i : Nat) (r : Record) : (s.releaseRecord i r).aru = s.aru := by simp [State.releaseRecord]
@[simp] theorem State.releaseRecord_pdu (s : State) (i : Nat) (r : Record) : (s.releaseRecord i r).pdu = s.pdu := by simp [State.releaseRecord]
@[simp] theorem State.releaseRecord_pending (s : State) (i : Nat) (r : Record) : (s.releaseRecord i r).pending = s.pending := by simp [State.releaseRecord]

/-! ### countFreed -/

@[simp] theorem State.countFreed_pins (s : State) (h : Holder) : (s.countFreed h).pins = s.pins := by unfold State.countFreed; split <;> rfl
@[simp] theorem State.countFreed_stu (s : State) (h : Holder) : (s.countFreed h).stu = s.stu := by unfold State.countFreed; split <;> rfl
@[simp] theorem State.countFreed_chu (s : State) (h : Holder) : (s.countFreed h).chu = s.chu := by unfold State.countFreed; split <;> rfl
@[simp] theorem State.countFreed_lines (s : State) (h : Holder) : (s.countFreed h).lines = s.lines := by unfold State.countFreed; split <;> rfl
@[simp] theorem State.countFreed_dsu (s : State) (h : Holder) : (s.countFreed h).dsu = s.dsu := by unfold State.countFreed; split <;> rfl
@[simp] theorem State.countFreed_rla (s : State) (h : Holder) : (s.countFreed h).rla = s.rla := by unfold State.countFreed; split <;> rfl
@[simp] theorem State.countFreed_rlb (s : State) (h : Holder) : (s.countFreed h).rlb = s.rlb := by unfold State.countFreed; split <;> rfl
@[simp] theorem State.countFreed_aru (s : State) (h : Holder) : (s.countFreed h).aru = s.aru := by unfold State.countFreed; split <;> rfl
@[simp] theorem State.countFreed_pdu (s : State) (h : Holder) : (s.countFreed h).pdu = s.pdu := by unfold State.countFreed; split <;> rfl
@[simp] theorem State.countFreed_clu (s : State) (h : Holder) : (s.countFreed h).clu = s.clu := by unfold State.countFreed; split <;> rfl
@[simp] theorem State.countFreed_pending (s : State) (h : Holder) : (s.countFreed h).pending = s.pending := by unfold State.countFreed; split <;> rfl

/-! ### lowerFree -/

@[simp] theorem State.lowerFree_pins (s : State) : (s.lowerFree).pins = s.pins := by unfold State.lowerFree; split <;> simp
@[simp] theorem State.lowerFree_stu (s : State) : (s.lowerFree).stu = s.stu := by unfold State.lowerFree; split <;> simp
@[simp] theorem State.lowerFree_chu (s : State) : (s.lowerFree).chu = s.chu := by unfold State.lowerFree; split <;> simp
@[simp] theorem State.lowerFree_lines (s : State) : (s.lowerFree).lines = s.lines := by unfold State.lowerFree; split <;> simp
@[simp] theorem State.lowerFree_dsu (s : State) : (s.lowerFree).dsu = s.dsu := by unfold State.lowerFree; split <;> simp
@[simp] theorem State.lowerFree_rla (s : State) : (s.lowerFree).rla = s.rla := by unfold State.lowerFree; split <;> simp
@[simp] theorem State.lowerFree_rlb (s : State) : (s.lowerFree).rlb = s.rlb := by unfold State.lowerFree; split <;> simp
@[simp] theorem State.lowerFree_aru (s : State) : (s.lowerFree).aru = s.aru := by unfold State.lowerFree; split <;> simp
@[simp] theorem State.lowerFree_pdu (s : State) : (s.lowerFree).pdu = s.pdu := by unfold State.lowerFree; split <;> simp
@[simp] theorem State.lowerFree_pending (s : State) : (s.lowerFree).pending = s.pending := by unfold State.lowerFree; split <;> simp

/-! ### raiseFree -/

@[simp] theorem State.raiseFree_pins (s : State) : (s.raiseFree).pins = s.pins := by unfold State.raiseFree; split <;> simp
@[simp] theorem State.raiseFree_stu (s : State) : (s.raiseFree).stu = s.stu := by unfold State.raiseFree; split <;> simp
@[simp] theorem State.raiseFree_chu (s : State) : (s.raiseFree).chu = s.chu := by unfold State.raiseFree; split <;> simp
@[simp] theorem State.raiseFree_lines (s : State) : (s.raiseFree).lines = s.lines := by unfold State.raiseFree; split <;> simp
@[simp] theorem State.raiseFree_dsu (s : State) : (s.raiseFree).dsu = s.dsu := by unfold State.raiseFree; split <;> simp
@[simp] theorem State.raiseFree_rla (s : State) : (s.raiseFree).rla = s.rla := by unfold State.raiseFree; split <;> simp
@[simp] theorem State.raiseFree_rlb (s : State) : (s.raiseFree).rlb = s.rlb := by unfold State.raiseFree; split <;> simp
@[simp] theorem State.raiseFree_aru (s : State) : (s.raiseFree).aru = s.aru := by unfold State.raiseFree; split <;> simp
@[simp] theorem State.raiseFree_pdu (s : State) : (s.raiseFree).pdu = s.pdu := by unfold State.raiseFree; split <;> simp
@[simp] theorem State.raiseFree_pending (s : State) : (s.raiseFree).pending = s.pending := by unfold State.raiseFree; split <;> simp

/-! ### takeOut -/

@[simp] theorem State.takeOut_pins (s : State) (n : Nat) (p : Place) : (s.takeOut n p).pins = s.pins := by cases p <;> rfl
@[simp] theorem State.takeOut_stu (s : State) (n : Nat) (p : Place) : (s.takeOut n p).stu = s.stu := by cases p <;> rfl
@[simp] theorem State.takeOut_msu (s : State) (n : Nat) (p : Place) : (s.takeOut n p).msu = s.msu := by cases p <;> rfl
@[simp] theorem State.takeOut_chu (s : State) (n : Nat) (p : Place) : (s.takeOut n p).chu = s.chu := by cases p <;> rfl
@[simp] theorem State.takeOut_lines (s : State) (n : Nat) (p : Place) : (s.takeOut n p).lines = s.lines := by cases p <;> rfl
@[simp] theorem State.takeOut_rla (s : State) (n : Nat) (p : Place) : (s.takeOut n p).rla = s.rla := by cases p <;> rfl
@[simp] theorem State.takeOut_rlb (s : State) (n : Nat) (p : Place) : (s.takeOut n p).rlb = s.rlb := by cases p <;> rfl
@[simp] theorem State.takeOut_pdu (s : State) (n : Nat) (p : Place) : (s.takeOut n p).pdu = s.pdu := by cases p <;> rfl
@[simp] theorem State.takeOut_clu (s : State) (n : Nat) (p : Place) : (s.takeOut n p).clu = s.clu := by cases p <;> rfl
@[simp] theorem State.takeOut_pending (s : State) (n : Nat) (p : Place) : (s.takeOut n p).pending = s.pending := by cases p <;> rfl

/-! ### placeTimed -/

@[simp] theorem State.placeTimed_pins (s : State) (n : Nat) (p : Place) (d : Tick) : (s.placeTimed n p d).pins = s.pins := by simp [State.placeTimed]
@[simp] theorem State.placeTimed_stu (s : State) (n : Nat) (p : Place) (d : Tick) : (s.placeTimed n p d).stu = s.stu := by simp [State.placeTimed]
@[simp] theorem State.placeTimed_chu (s : State) (n : Nat) (p : Place) (d : Tick) : (s.placeTimed n p d).chu = s.chu := by simp [State.placeTimed]
@[simp] theorem State.placeTimed_lines (s : State) (n : Nat) (p : Place) (d : Tick) : (s.placeTimed n p d).lines = s.lines := by simp [State.placeTimed]
@[simp] theorem State.placeTimed_dsu (s : State) (n : Nat) (p : Place) (d : Tick) : (s.placeTimed n p d).dsu = s.dsu := by simp [State.placeTimed]
@[simp] theorem State.placeTimed_rla (s : State) (n : Nat) (p : Place) (d : Tick) : (s.placeTimed n p d).rla = s.rla := by simp [State.placeTimed]
@[simp] theorem State.placeTimed_rlb (s : State) (n : Nat) (p : Place) (d : Tick) : (s.placeTimed n p d).rlb = s.rlb := by simp [State.placeTimed]
@[simp] theorem State.placeTimed_pdu (s : State) (n : Nat) (p : Place) (d : Tick) : (s.placeTimed n p d).pdu = s.pdu := by simp [State.placeTimed]
@[simp] theorem State.placeTimed_clu (s : State) (n : Nat) (p : Place) (d : Tick) : (s.placeTimed n p d).clu = s.clu := by simp [State.placeTimed]
@[simp] theorem State.placeTimed_pending (s : State) (n : Nat) (p : Place) (d : Tick) : (s.placeTimed n p d).pending = s.pending := by simp [State.placeTimed]

/-! ### freeSlot -/

@[simp] theorem State.freeSlot_pins (s : State) (n owner : Nat) : (s.freeSlot n owner).pins = s.pins := by simp [State.freeSlot]
@[simp] theorem State.freeSlot_chu (s : State) (n owner : Nat) : (s.freeSlot n owner).chu = s.chu := by simp [State.freeSlot]
@[simp] theorem State.freeSlot_lines (s : State) (n owner : Nat) : (s.freeSlot n owner).lines = s.lines := by simp [State.freeSlot]
@[simp] theorem State.freeSlot_dsu (s : State) (n owner : Nat) : (s.freeSlot n owner).dsu = s.dsu := by simp [State.freeSlot]
@[simp] theorem State.freeSlot_rla (s : State) (n owner : Nat) : (s.freeSlot n owner).rla = s.rla := by simp [State.freeSlot]
@[simp] theorem State.freeSlot_rlb (s : State) (n owner : Nat) : (s.freeSlot n owner).rlb = s.rlb := by simp [State.freeSlot]
@[simp] theorem State.freeSlot_aru (s : State) (n owner : Nat) : (s.freeSlot n owner).aru = s.aru := by simp [State.freeSlot]
@[simp] theorem State.freeSlot_pdu (s : State) (n owner : Nat) : (s.freeSlot n owner).pdu = s.pdu := by simp [State.freeSlot]
@[simp] theorem State.freeSlot_pending (s : State) (n owner : Nat) : (s.freeSlot n owner).pending = s.pending := by simp [State.freeSlot]

/-! ### settle -/

@[simp] theorem State.settle_pins (s : State) (e : Ending) (n : Nat) : (s.settle e n).pins = s.pins := by unfold State.settle; split <;> simp
@[simp] theorem State.settle_chu (s : State) (e : Ending) (n : Nat) : (s.settle e n).chu = s.chu := by unfold State.settle; split <;> simp
@[simp] theorem State.settle_lines (s : State) (e : Ending) (n : Nat) : (s.settle e n).lines = s.lines := by unfold State.settle; split <;> simp
@[simp] theorem State.settle_rla (s : State) (e : Ending) (n : Nat) : (s.settle e n).rla = s.rla := by unfold State.settle; split <;> simp
@[simp] theorem State.settle_rlb (s : State) (e : Ending) (n : Nat) : (s.settle e n).rlb = s.rlb := by unfold State.settle; split <;> simp
@[simp] theorem State.settle_pdu (s : State) (e : Ending) (n : Nat) : (s.settle e n).pdu = s.pdu := by unfold State.settle; split <;> simp
@[simp] theorem State.settle_pending (s : State) (e : Ending) (n : Nat) : (s.settle e n).pending = s.pending := by unfold State.settle; split <;> simp

/-! ### evictOldest -/

@[simp] theorem State.evictOldest_pins (s : State) (i : Nat) : (s.evictOldest i).pins = s.pins := by unfold State.evictOldest; repeat (first | split | simp)
@[simp] theorem State.evictOldest_chu (s : State) (i : Nat) : (s.evictOldest i).chu = s.chu := by unfold State.evictOldest; repeat (first | split | simp)
@[simp] theorem State.evictOldest_lines (s : State) (i : Nat) : (s.evictOldest i).lines = s.lines := by unfold State.evictOldest; repeat (first | split | simp)
@[simp] theorem State.evictOldest_rla (s : State) (i : Nat) : (s.evictOldest i).rla = s.rla := by unfold State.evictOldest; repeat (first | split | simp)
@[simp] theorem State.evictOldest_rlb (s : State) (i : Nat) : (s.evictOldest i).rlb = s.rlb := by unfold State.evictOldest; repeat (first | split | simp)
@[simp] theorem State.evictOldest_pdu (s : State) (i : Nat) : (s.evictOldest i).pdu = s.pdu := by unfold State.evictOldest; repeat (first | split | simp)
@[simp] theorem State.evictOldest_pending (s : State) (i : Nat) : (s.evictOldest i).pending = s.pending := by unfold State.evictOldest; repeat (first | split | simp)

/-! ### hold -/

@[simp] theorem State.hold_pins (s : State) (n i : Nat) : (s.hold n i).pins = s.pins := by simp [State.hold]
@[simp] theorem State.hold_chu (s : State) (n i : Nat) : (s.hold n i).chu = s.chu := by simp [State.hold]
@[simp] theorem State.hold_lines (s : State) (n i : Nat) : (s.hold n i).lines = s.lines := by simp [State.hold]
@[simp] theorem State.hold_dsu (s : State) (n i : Nat) : (s.hold n i).dsu = s.dsu := by simp [State.hold]
@[simp] theorem State.hold_rla (s : State) (n i : Nat) : (s.hold n i).rla = s.rla := by simp [State.hold]
@[simp] theorem State.hold_rlb (s : State) (n i : Nat) : (s.hold n i).rlb = s.rlb := by simp [State.hold]
@[simp] theorem State.hold_pdu (s : State) (n i : Nat) : (s.hold n i).pdu = s.pdu := by simp [State.hold]
@[simp] theorem State.hold_clu (s : State) (n i : Nat) : (s.hold n i).clu = s.clu := by simp [State.hold]
@[simp] theorem State.hold_pending (s : State) (n i : Nat) : (s.hold n i).pending = s.pending := by simp [State.hold]

/-! ### park -/

@[simp] theorem State.park_pins (s : State) (n : Nat) : (s.park n).pins = s.pins := by unfold State.park; repeat (first | split | simp)
@[simp] theorem State.park_chu (s : State) (n : Nat) : (s.park n).chu = s.chu := by unfold State.park; repeat (first | split | simp)
@[simp] theorem State.park_lines (s : State) (n : Nat) : (s.park n).lines = s.lines := by unfold State.park; repeat (first | split | simp)
@[simp] theorem State.park_rla (s : State) (n : Nat) : (s.park n).rla = s.rla := by unfold State.park; repeat (first | split | simp)
@[simp] theorem State.park_rlb (s : State) (n : Nat) : (s.park n).rlb = s.rlb := by unfold State.park; repeat (first | split | simp)
@[simp] theorem State.park_pdu (s : State) (n : Nat) : (s.park n).pdu = s.pdu := by unfold State.park; repeat (first | split | simp)
@[simp] theorem State.park_pending (s : State) (n : Nat) : (s.park n).pending = s.pending := by unfold State.park; repeat (first | split | simp)

/-! ### allocate -/

@[simp] theorem State.allocate_pins (s : State) (n : Nat) (free : FreeList) (i : Nat) (r : Record) (src : Source) (p : Priority) (body : List Byte) (charge : Nat) : (s.allocate n free i r src p body charge).pins = s.pins := by simp [State.allocate]
@[simp] theorem State.allocate_chu (s : State) (n : Nat) (free : FreeList) (i : Nat) (r : Record) (src : Source) (p : Priority) (body : List Byte) (charge : Nat) : (s.allocate n free i r src p body charge).chu = s.chu := by simp [State.allocate]
@[simp] theorem State.allocate_lines (s : State) (n : Nat) (free : FreeList) (i : Nat) (r : Record) (src : Source) (p : Priority) (body : List Byte) (charge : Nat) : (s.allocate n free i r src p body charge).lines = s.lines := by simp [State.allocate]
@[simp] theorem State.allocate_dsu (s : State) (n : Nat) (free : FreeList) (i : Nat) (r : Record) (src : Source) (p : Priority) (body : List Byte) (charge : Nat) : (s.allocate n free i r src p body charge).dsu = s.dsu := by simp [State.allocate]
@[simp] theorem State.allocate_rla (s : State) (n : Nat) (free : FreeList) (i : Nat) (r : Record) (src : Source) (p : Priority) (body : List Byte) (charge : Nat) : (s.allocate n free i r src p body charge).rla = s.rla := by simp [State.allocate]
@[simp] theorem State.allocate_rlb (s : State) (n : Nat) (free : FreeList) (i : Nat) (r : Record) (src : Source) (p : Priority) (body : List Byte) (charge : Nat) : (s.allocate n free i r src p body charge).rlb = s.rlb := by simp [State.allocate]
@[simp] theorem State.allocate_aru (s : State) (n : Nat) (free : FreeList) (i : Nat) (r : Record) (src : Source) (p : Priority) (body : List Byte) (charge : Nat) : (s.allocate n free i r src p body charge).aru = s.aru := by simp [State.allocate]
@[simp] theorem State.allocate_pdu (s : State) (n : Nat) (free : FreeList) (i : Nat) (r : Record) (src : Source) (p : Priority) (body : List Byte) (charge : Nat) : (s.allocate n free i r src p body charge).pdu = s.pdu := by simp [State.allocate]
@[simp] theorem State.allocate_pending (s : State) (n : Nat) (free : FreeList) (i : Nat) (r : Record) (src : Source) (p : Priority) (body : List Byte) (charge : Nat) : (s.allocate n free i r src p body charge).pending = s.pending := by simp [State.allocate]

/-! ### popQueue -/

@[simp] theorem State.popQueue_pins (s : State) (q : QueueName) (n : Nat) (rest : List Nat) : (s.popQueue q n rest).pins = s.pins := by simp [State.popQueue]
@[simp] theorem State.popQueue_stu (s : State) (q : QueueName) (n : Nat) (rest : List Nat) : (s.popQueue q n rest).stu = s.stu := by simp [State.popQueue]
@[simp] theorem State.popQueue_chu (s : State) (q : QueueName) (n : Nat) (rest : List Nat) : (s.popQueue q n rest).chu = s.chu := by simp [State.popQueue]
@[simp] theorem State.popQueue_lines (s : State) (q : QueueName) (n : Nat) (rest : List Nat) : (s.popQueue q n rest).lines = s.lines := by simp [State.popQueue]
@[simp] theorem State.popQueue_rla (s : State) (q : QueueName) (n : Nat) (rest : List Nat) : (s.popQueue q n rest).rla = s.rla := by simp [State.popQueue]
@[simp] theorem State.popQueue_rlb (s : State) (q : QueueName) (n : Nat) (rest : List Nat) : (s.popQueue q n rest).rlb = s.rlb := by simp [State.popQueue]
@[simp] theorem State.popQueue_aru (s : State) (q : QueueName) (n : Nat) (rest : List Nat) : (s.popQueue q n rest).aru = s.aru := by simp [State.popQueue]
@[simp] theorem State.popQueue_pdu (s : State) (q : QueueName) (n : Nat) (rest : List Nat) : (s.popQueue q n rest).pdu = s.pdu := by simp [State.popQueue]
@[simp] theorem State.popQueue_clu (s : State) (q : QueueName) (n : Nat) (rest : List Nat) : (s.popQueue q n rest).clu = s.clu := by simp [State.popQueue]
@[simp] theorem State.popQueue_pending (s : State) (q : QueueName) (n : Nat) (rest : List Nat) : (s.popQueue q n rest).pending = s.pending := by simp [State.popQueue]

/-! ### stage -/

@[simp] theorem State.stage_pins (s : State) (n : Nat) (m : Message) (r : Record) : (s.stage n m r).pins = s.pins := by simp [State.stage]
@[simp] theorem State.stage_stu (s : State) (n : Nat) (m : Message) (r : Record) : (s.stage n m r).stu = s.stu := by simp [State.stage]
@[simp] theorem State.stage_chu (s : State) (n : Nat) (m : Message) (r : Record) : (s.stage n m r).chu = s.chu := by simp [State.stage]
@[simp] theorem State.stage_lines (s : State) (n : Nat) (m : Message) (r : Record) : (s.stage n m r).lines = s.lines := by simp [State.stage]
@[simp] theorem State.stage_rla (s : State) (n : Nat) (m : Message) (r : Record) : (s.stage n m r).rla = s.rla := by simp [State.stage]
@[simp] theorem State.stage_rlb (s : State) (n : Nat) (m : Message) (r : Record) : (s.stage n m r).rlb = s.rlb := by simp [State.stage]
@[simp] theorem State.stage_aru (s : State) (n : Nat) (m : Message) (r : Record) : (s.stage n m r).aru = s.aru := by simp [State.stage]
@[simp] theorem State.stage_pdu (s : State) (n : Nat) (m : Message) (r : Record) : (s.stage n m r).pdu = s.pdu := by simp [State.stage]
@[simp] theorem State.stage_clu (s : State) (n : Nat) (m : Message) (r : Record) : (s.stage n m r).clu = s.clu := by simp [State.stage]
@[simp] theorem State.stage_pending (s : State) (n : Nat) (m : Message) (r : Record) : (s.stage n m r).pending = s.pending := by simp [State.stage]

/-! ### move -/

@[simp] theorem State.move_pins (s : State) : (s.move).pins = s.pins := by unfold State.move; split <;> simp
@[simp] theorem State.move_stu (s : State) : (s.move).stu = s.stu := by unfold State.move; split <;> simp
@[simp] theorem State.move_chu (s : State) : (s.move).chu = s.chu := by unfold State.move; split <;> simp
@[simp] theorem State.move_lines (s : State) : (s.move).lines = s.lines := by unfold State.move; split <;> simp
@[simp] theorem State.move_rla (s : State) : (s.move).rla = s.rla := by unfold State.move; split <;> simp
@[simp] theorem State.move_rlb (s : State) : (s.move).rlb = s.rlb := by unfold State.move; split <;> simp
@[simp] theorem State.move_aru (s : State) : (s.move).aru = s.aru := by unfold State.move; split <;> simp
@[simp] theorem State.move_pdu (s : State) : (s.move).pdu = s.pdu := by unfold State.move; split <;> simp
@[simp] theorem State.move_clu (s : State) : (s.move).clu = s.clu := by unfold State.move; split <;> simp
@[simp] theorem State.move_pending (s : State) : (s.move).pending = s.pending := by unfold State.move; split <;> simp

/-! ### restoreZones -/

@[simp] theorem State.restoreZones_pins (s : State) : (s.restoreZones).pins = s.pins := by unfold State.restoreZones; split <;> simp
@[simp] theorem State.restoreZones_stu (s : State) : (s.restoreZones).stu = s.stu := by unfold State.restoreZones; split <;> simp
@[simp] theorem State.restoreZones_msu (s : State) : (s.restoreZones).msu = s.msu := by unfold State.restoreZones; split <;> simp
@[simp] theorem State.restoreZones_chu (s : State) : (s.restoreZones).chu = s.chu := by unfold State.restoreZones; split <;> simp
@[simp] theorem State.restoreZones_lines (s : State) : (s.restoreZones).lines = s.lines := by unfold State.restoreZones; split <;> simp
@[simp] theorem State.restoreZones_rla (s : State) : (s.restoreZones).rla = s.rla := by unfold State.restoreZones; split <;> simp
@[simp] theorem State.restoreZones_rlb (s : State) : (s.restoreZones).rlb = s.rlb := by unfold State.restoreZones; split <;> simp
@[simp] theorem State.restoreZones_aru (s : State) : (s.restoreZones).aru = s.aru := by unfold State.restoreZones; split <;> simp
@[simp] theorem State.restoreZones_pdu (s : State) : (s.restoreZones).pdu = s.pdu := by unfold State.restoreZones; split <;> simp
@[simp] theorem State.restoreZones_pending (s : State) : (s.restoreZones).pending = s.pending := by unfold State.restoreZones; split <;> simp

/-! ### markOutage -/

@[simp] theorem State.markOutage_pins (s : State) : (s.markOutage).pins = s.pins := by unfold State.markOutage; split <;> simp
@[simp] theorem State.markOutage_stu (s : State) : (s.markOutage).stu = s.stu := by unfold State.markOutage; split <;> simp
@[simp] theorem State.markOutage_msu (s : State) : (s.markOutage).msu = s.msu := by unfold State.markOutage; split <;> simp
@[simp] theorem State.markOutage_chu (s : State) : (s.markOutage).chu = s.chu := by unfold State.markOutage; split <;> simp
@[simp] theorem State.markOutage_lines (s : State) : (s.markOutage).lines = s.lines := by unfold State.markOutage; split <;> simp
@[simp] theorem State.markOutage_rla (s : State) : (s.markOutage).rla = s.rla := by unfold State.markOutage; split <;> simp
@[simp] theorem State.markOutage_rlb (s : State) : (s.markOutage).rlb = s.rlb := by unfold State.markOutage; split <;> simp
@[simp] theorem State.markOutage_aru (s : State) : (s.markOutage).aru = s.aru := by unfold State.markOutage; split <;> simp
@[simp] theorem State.markOutage_pdu (s : State) : (s.markOutage).pdu = s.pdu := by unfold State.markOutage; split <;> simp
@[simp] theorem State.markOutage_pending (s : State) : (s.markOutage).pending = s.pending := by unfold State.markOutage; split <;> simp

/-! ### completeReset -/

@[simp] theorem State.completeReset_pins (s : State) : (s.completeReset).pins = s.pins := by unfold State.completeReset; repeat (first | split | simp)
@[simp] theorem State.completeReset_stu (s : State) : (s.completeReset).stu = s.stu := by unfold State.completeReset; repeat (first | split | simp)
@[simp] theorem State.completeReset_chu (s : State) : (s.completeReset).chu = s.chu := by unfold State.completeReset; repeat (first | split | simp)
@[simp] theorem State.completeReset_lines (s : State) : (s.completeReset).lines = s.lines := by unfold State.completeReset; repeat (first | split | simp)
@[simp] theorem State.completeReset_dsu (s : State) : (s.completeReset).dsu = s.dsu := by unfold State.completeReset; repeat (first | split | simp)
@[simp] theorem State.completeReset_rla (s : State) : (s.completeReset).rla = s.rla := by unfold State.completeReset; repeat (first | split | simp)
@[simp] theorem State.completeReset_rlb (s : State) : (s.completeReset).rlb = s.rlb := by unfold State.completeReset; repeat (first | split | simp)
@[simp] theorem State.completeReset_aru (s : State) : (s.completeReset).aru = s.aru := by unfold State.completeReset; repeat (first | split | simp)
@[simp] theorem State.completeReset_pdu (s : State) : (s.completeReset).pdu = s.pdu := by unfold State.completeReset; repeat (first | split | simp)
@[simp] theorem State.completeReset_pending (s : State) : (s.completeReset).pending = s.pending := by unfold State.completeReset; repeat (first | split | simp)

/-! ### countFlushed -/

@[simp] theorem State.countFlushed_pins (s : State) : (s.countFlushed).pins = s.pins := rfl
@[simp] theorem State.countFlushed_stu (s : State) : (s.countFlushed).stu = s.stu := rfl
@[simp] theorem State.countFlushed_chu (s : State) : (s.countFlushed).chu = s.chu := rfl
@[simp] theorem State.countFlushed_lines (s : State) : (s.countFlushed).lines = s.lines := rfl
@[simp] theorem State.countFlushed_dsu (s : State) : (s.countFlushed).dsu = s.dsu := rfl
@[simp] theorem State.countFlushed_rla (s : State) : (s.countFlushed).rla = s.rla := rfl
@[simp] theorem State.countFlushed_rlb (s : State) : (s.countFlushed).rlb = s.rlb := rfl
@[simp] theorem State.countFlushed_aru (s : State) : (s.countFlushed).aru = s.aru := rfl
@[simp] theorem State.countFlushed_pdu (s : State) : (s.countFlushed).pdu = s.pdu := rfl
@[simp] theorem State.countFlushed_clu (s : State) : (s.countFlushed).clu = s.clu := rfl
@[simp] theorem State.countFlushed_pending (s : State) : (s.countFlushed).pending = s.pending := rfl

/-! ### advanceCursor -/

@[simp] theorem State.advanceCursor_pins (s : State) : (s.advanceCursor).pins = s.pins := rfl
@[simp] theorem State.advanceCursor_stu (s : State) : (s.advanceCursor).stu = s.stu := rfl
@[simp] theorem State.advanceCursor_chu (s : State) : (s.advanceCursor).chu = s.chu := rfl
@[simp] theorem State.advanceCursor_lines (s : State) : (s.advanceCursor).lines = s.lines := rfl
@[simp] theorem State.advanceCursor_dsu (s : State) : (s.advanceCursor).dsu = s.dsu := rfl
@[simp] theorem State.advanceCursor_rla (s : State) : (s.advanceCursor).rla = s.rla := rfl
@[simp] theorem State.advanceCursor_rlb (s : State) : (s.advanceCursor).rlb = s.rlb := rfl
@[simp] theorem State.advanceCursor_aru (s : State) : (s.advanceCursor).aru = s.aru := rfl
@[simp] theorem State.advanceCursor_pdu (s : State) : (s.advanceCursor).pdu = s.pdu := rfl
@[simp] theorem State.advanceCursor_clu (s : State) : (s.advanceCursor).clu = s.clu := rfl
@[simp] theorem State.advanceCursor_pending (s : State) : (s.advanceCursor).pending = s.pending := rfl

/-! ### popReport -/

@[simp] theorem State.popReport_pins (s : State) (l : Link) : (s.popReport l).pins = s.pins := by simp [State.popReport]
@[simp] theorem State.popReport_stu (s : State) (l : Link) : (s.popReport l).stu = s.stu := by simp [State.popReport]
@[simp] theorem State.popReport_msu (s : State) (l : Link) : (s.popReport l).msu = s.msu := by simp [State.popReport]
@[simp] theorem State.popReport_chu (s : State) (l : Link) : (s.popReport l).chu = s.chu := by simp [State.popReport]
@[simp] theorem State.popReport_lines (s : State) (l : Link) : (s.popReport l).lines = s.lines := by simp [State.popReport]
@[simp] theorem State.popReport_dsu (s : State) (l : Link) : (s.popReport l).dsu = s.dsu := by simp [State.popReport]
@[simp] theorem State.popReport_aru (s : State) (l : Link) : (s.popReport l).aru = s.aru := by simp [State.popReport]
@[simp] theorem State.popReport_pdu (s : State) (l : Link) : (s.popReport l).pdu = s.pdu := by simp [State.popReport]
@[simp] theorem State.popReport_clu (s : State) (l : Link) : (s.popReport l).clu = s.clu := by simp [State.popReport]
@[simp] theorem State.popReport_pending (s : State) (l : Link) : (s.popReport l).pending = s.pending := by simp [State.popReport]

/-! ### offerReport -/

@[simp] theorem State.offerReport_pins (s : State) (l : Link) (rep : Report) : (s.offerReport l rep).pins = s.pins := by unfold State.offerReport; repeat (first | split | simp)
@[simp] theorem State.offerReport_stu (s : State) (l : Link) (rep : Report) : (s.offerReport l rep).stu = s.stu := by unfold State.offerReport; repeat (first | split | simp)
@[simp] theorem State.offerReport_msu (s : State) (l : Link) (rep : Report) : (s.offerReport l rep).msu = s.msu := by unfold State.offerReport; repeat (first | split | simp)
@[simp] theorem State.offerReport_chu (s : State) (l : Link) (rep : Report) : (s.offerReport l rep).chu = s.chu := by unfold State.offerReport; repeat (first | split | simp)
@[simp] theorem State.offerReport_lines (s : State) (l : Link) (rep : Report) : (s.offerReport l rep).lines = s.lines := by unfold State.offerReport; repeat (first | split | simp)
@[simp] theorem State.offerReport_dsu (s : State) (l : Link) (rep : Report) : (s.offerReport l rep).dsu = s.dsu := by unfold State.offerReport; repeat (first | split | simp)
@[simp] theorem State.offerReport_aru (s : State) (l : Link) (rep : Report) : (s.offerReport l rep).aru = s.aru := by unfold State.offerReport; repeat (first | split | simp)
@[simp] theorem State.offerReport_pdu (s : State) (l : Link) (rep : Report) : (s.offerReport l rep).pdu = s.pdu := by unfold State.offerReport; repeat (first | split | simp)
@[simp] theorem State.offerReport_pending (s : State) (l : Link) (rep : Report) : (s.offerReport l rep).pending = s.pending := by unfold State.offerReport; repeat (first | split | simp)

/-! ### setPresence -/

@[simp] theorem State.setPresence_pins (s : State) (i : Nat) (p : Presence) : (s.setPresence i p).pins = s.pins := by simp [State.setPresence]
@[simp] theorem State.setPresence_msu (s : State) (i : Nat) (p : Presence) : (s.setPresence i p).msu = s.msu := by simp [State.setPresence]
@[simp] theorem State.setPresence_chu (s : State) (i : Nat) (p : Presence) : (s.setPresence i p).chu = s.chu := by simp [State.setPresence]
@[simp] theorem State.setPresence_lines (s : State) (i : Nat) (p : Presence) : (s.setPresence i p).lines = s.lines := by simp [State.setPresence]
@[simp] theorem State.setPresence_dsu (s : State) (i : Nat) (p : Presence) : (s.setPresence i p).dsu = s.dsu := by simp [State.setPresence]
@[simp] theorem State.setPresence_rla (s : State) (i : Nat) (p : Presence) : (s.setPresence i p).rla = s.rla := by simp [State.setPresence]
@[simp] theorem State.setPresence_rlb (s : State) (i : Nat) (p : Presence) : (s.setPresence i p).rlb = s.rlb := by simp [State.setPresence]
@[simp] theorem State.setPresence_aru (s : State) (i : Nat) (p : Presence) : (s.setPresence i p).aru = s.aru := by simp [State.setPresence]
@[simp] theorem State.setPresence_pdu (s : State) (i : Nat) (p : Presence) : (s.setPresence i p).pdu = s.pdu := by simp [State.setPresence]
@[simp] theorem State.setPresence_clu (s : State) (i : Nat) (p : Presence) : (s.setPresence i p).clu = s.clu := by simp [State.setPresence]
@[simp] theorem State.setPresence_pending (s : State) (i : Nat) (p : Presence) : (s.setPresence i p).pending = s.pending := by simp [State.setPresence]

/-! ### releaseSlot -/

@[simp] theorem State.releaseSlot_pins (s : State) (n : Nat) : (s.releaseSlot n).pins = s.pins := by simp [State.releaseSlot]
@[simp] theorem State.releaseSlot_stu (s : State) (n : Nat) : (s.releaseSlot n).stu = s.stu := by simp [State.releaseSlot]
@[simp] theorem State.releaseSlot_chu (s : State) (n : Nat) : (s.releaseSlot n).chu = s.chu := by simp [State.releaseSlot]
@[simp] theorem State.releaseSlot_lines (s : State) (n : Nat) : (s.releaseSlot n).lines = s.lines := by simp [State.releaseSlot]
@[simp] theorem State.releaseSlot_rla (s : State) (n : Nat) : (s.releaseSlot n).rla = s.rla := by simp [State.releaseSlot]
@[simp] theorem State.releaseSlot_rlb (s : State) (n : Nat) : (s.releaseSlot n).rlb = s.rlb := by simp [State.releaseSlot]
@[simp] theorem State.releaseSlot_pdu (s : State) (n : Nat) : (s.releaseSlot n).pdu = s.pdu := by simp [State.releaseSlot]
@[simp] theorem State.releaseSlot_clu (s : State) (n : Nat) : (s.releaseSlot n).clu = s.clu := by simp [State.releaseSlot]
@[simp] theorem State.releaseSlot_pending (s : State) (n : Nat) : (s.releaseSlot n).pending = s.pending := by simp [State.releaseSlot]

/-! ### startClose -/

@[simp] theorem State.startClose_pins (s : State) (c : Cause) : (s.startClose c).pins = s.pins := by simp [State.startClose]
@[simp] theorem State.startClose_stu (s : State) (c : Cause) : (s.startClose c).stu = s.stu := by simp [State.startClose]
@[simp] theorem State.startClose_msu (s : State) (c : Cause) : (s.startClose c).msu = s.msu := by simp [State.startClose]
@[simp] theorem State.startClose_chu (s : State) (c : Cause) : (s.startClose c).chu = s.chu := by simp [State.startClose]
@[simp] theorem State.startClose_lines (s : State) (c : Cause) : (s.startClose c).lines = s.lines := by simp [State.startClose]
@[simp] theorem State.startClose_dsu (s : State) (c : Cause) : (s.startClose c).dsu = s.dsu := by simp [State.startClose]
@[simp] theorem State.startClose_rla (s : State) (c : Cause) : (s.startClose c).rla = s.rla := by simp [State.startClose]
@[simp] theorem State.startClose_rlb (s : State) (c : Cause) : (s.startClose c).rlb = s.rlb := by simp [State.startClose]
@[simp] theorem State.startClose_aru (s : State) (c : Cause) : (s.startClose c).aru = s.aru := by simp [State.startClose]
@[simp] theorem State.startClose_pending (s : State) (c : Cause) : (s.startClose c).pending = s.pending := by simp [State.startClose]

/-! ### countTick -/

@[simp] theorem State.countTick_pins (s : State) : (s.countTick).pins = s.pins := rfl
@[simp] theorem State.countTick_stu (s : State) : (s.countTick).stu = s.stu := rfl
@[simp] theorem State.countTick_msu (s : State) : (s.countTick).msu = s.msu := rfl
@[simp] theorem State.countTick_chu (s : State) : (s.countTick).chu = s.chu := rfl
@[simp] theorem State.countTick_dsu (s : State) : (s.countTick).dsu = s.dsu := rfl
@[simp] theorem State.countTick_aru (s : State) : (s.countTick).aru = s.aru := rfl
@[simp] theorem State.countTick_clu (s : State) : (s.countTick).clu = s.clu := rfl
@[simp] theorem State.countTick_pending (s : State) : (s.countTick).pending = s.pending := rfl

/-! ### advanceMinute -/

@[simp] theorem State.advanceMinute_pins (s : State) : (s.advanceMinute).pins = s.pins := by unfold State.advanceMinute; repeat (first | split | simp)
@[simp] theorem State.advanceMinute_stu (s : State) : (s.advanceMinute).stu = s.stu := by unfold State.advanceMinute; repeat (first | split | simp)
@[simp] theorem State.advanceMinute_msu (s : State) : (s.advanceMinute).msu = s.msu := by unfold State.advanceMinute; repeat (first | split | simp)
@[simp] theorem State.advanceMinute_chu (s : State) : (s.advanceMinute).chu = s.chu := by unfold State.advanceMinute; repeat (first | split | simp)
@[simp] theorem State.advanceMinute_lines (s : State) : (s.advanceMinute).lines = s.lines := by unfold State.advanceMinute; repeat (first | split | simp)
@[simp] theorem State.advanceMinute_dsu (s : State) : (s.advanceMinute).dsu = s.dsu := by unfold State.advanceMinute; repeat (first | split | simp)
@[simp] theorem State.advanceMinute_rla (s : State) : (s.advanceMinute).rla = s.rla := by unfold State.advanceMinute; repeat (first | split | simp)
@[simp] theorem State.advanceMinute_rlb (s : State) : (s.advanceMinute).rlb = s.rlb := by unfold State.advanceMinute; repeat (first | split | simp)
@[simp] theorem State.advanceMinute_aru (s : State) : (s.advanceMinute).aru = s.aru := by unfold State.advanceMinute; repeat (first | split | simp)
@[simp] theorem State.advanceMinute_pending (s : State) : (s.advanceMinute).pending = s.pending := by unfold State.advanceMinute; repeat (first | split | simp)

/-! ### lineDown -/

@[simp] theorem State.lineDown_pins (s : State) (n : Fin 4) : (s.lineDown n).pins = s.pins := by unfold State.lineDown; repeat (first | split | simp)
@[simp] theorem State.lineDown_stu (s : State) (n : Fin 4) : (s.lineDown n).stu = s.stu := by unfold State.lineDown; repeat (first | split | simp)
@[simp] theorem State.lineDown_msu (s : State) (n : Fin 4) : (s.lineDown n).msu = s.msu := by unfold State.lineDown; repeat (first | split | simp)
@[simp] theorem State.lineDown_chu (s : State) (n : Fin 4) : (s.lineDown n).chu = s.chu := by unfold State.lineDown; repeat (first | split | simp)
@[simp] theorem State.lineDown_dsu (s : State) (n : Fin 4) : (s.lineDown n).dsu = s.dsu := by unfold State.lineDown; repeat (first | split | simp)
@[simp] theorem State.lineDown_rla (s : State) (n : Fin 4) : (s.lineDown n).rla = s.rla := by unfold State.lineDown; repeat (first | split | simp)
@[simp] theorem State.lineDown_rlb (s : State) (n : Fin 4) : (s.lineDown n).rlb = s.rlb := by unfold State.lineDown; repeat (first | split | simp)
@[simp] theorem State.lineDown_aru (s : State) (n : Fin 4) : (s.lineDown n).aru = s.aru := by unfold State.lineDown; repeat (first | split | simp)
@[simp] theorem State.lineDown_pending (s : State) (n : Fin 4) : (s.lineDown n).pending = s.pending := by unfold State.lineDown; repeat (first | split | simp)

end Sys2Proof.Machine
end

