-- ==== Sys2Proof/Laws/Tables.lean ====
section
/-! SUPPORT. The laws of the sparse tables and of the free lists: a read after a write, and that every operation keeps
the canonical form. -/

namespace Sys2Proof.Machine
open Sys2Proof

variable {α : Type}

/-! ## Reading after writing -/

@[simp] theorem Sparse.look_put_same (m : Sparse α) (i : Nat) (v : α) : (m.put i v).look i = some v := by
  induction m with
  | nil => simp [Sparse.put, Sparse.look]
  | cons p m ih =>
    obtain ⟨k, w⟩ := p
    by_cases h1 : i < k
    · simp [Sparse.put, Sparse.look, h1]
    · by_cases h2 : k = i
      · subst h2; simp [Sparse.put, Sparse.look]
      · simp [Sparse.put, Sparse.look, h1, h2, ih]

@[simp] theorem Sparse.look_put_other (m : Sparse α) {i j : Nat} (v : α) (h : j ≠ i) :
    (m.put i v).look j = m.look j := by
  induction m with
  | nil => simp [Sparse.put, Sparse.look, Ne.symm h]
  | cons p m ih =>
    obtain ⟨k, w⟩ := p
    by_cases h1 : i < k
    · simp [Sparse.put, Sparse.look, h1, Ne.symm h]
    · by_cases h2 : k = i
      · subst h2; simp [Sparse.put, Sparse.look, Ne.symm h]
      · simp [Sparse.put, Sparse.look, h1, h2, ih]

@[simp] theorem Sparse.look_drop_same (m : Sparse α) (i : Nat) : (m.drop i).look i = none := by
  induction m with
  | nil => rfl
  | cons p m ih =>
    obtain ⟨k, w⟩ := p
    by_cases h : k = i <;> simp [Sparse.drop, Sparse.look, h, ih]

@[simp] theorem Sparse.look_drop_other (m : Sparse α) {i j : Nat} (h : j ≠ i) : (m.drop i).look j = m.look j := by
  induction m with
  | nil => rfl
  | cons p m ih =>
    obtain ⟨k, w⟩ := p
    by_cases h1 : k = i
    · subst h1; simp [Sparse.drop, Sparse.look, Ne.symm h, ih]
    · simp [Sparse.drop, Sparse.look, h1, ih]

/-! ## What the entries of a table satisfy -/

/-- Whatever every entry satisfied, every entry satisfies after a write of a value that satisfies it. -/
theorem Sparse.all_put {p : Nat × α → Bool} {m : Sparse α} {i : Nat} {v : α} (hm : m.all p = true)
    (hv : p (i, v) = true) : (m.put i v).all p = true := by
  induction m with
  | nil => simp [Sparse.put, hv]
  | cons q m ih =>
    obtain ⟨k, w⟩ := q
    simp only [List.all_cons, Bool.and_eq_true] at hm
    by_cases h1 : i < k
    · simp [Sparse.put, h1, hv, hm]
    · by_cases h2 : k = i
      · simp [Sparse.put, h2, hv, hm]
      · simp [Sparse.put, h1, h2, hm, ih hm.2]

/-- Whatever every entry satisfied, every entry satisfies after a removal. -/
theorem Sparse.all_drop {p : Nat × α → Bool} {m : Sparse α} {i : Nat} (hm : m.all p = true) :
    (m.drop i).all p = true := by
  induction m with
  | nil => rfl
  | cons q m ih =>
    obtain ⟨k, w⟩ := q
    simp only [List.all_cons, Bool.and_eq_true] at hm
    by_cases h : k = i
    · simp [Sparse.drop, h, ih hm.2]
    · simp [Sparse.drop, h, hm.1, ih hm.2]

/-- A value that is read satisfies what every entry satisfies. -/
theorem Sparse.all_look {p : Nat × α → Bool} {m : Sparse α} {i : Nat} {v : α} (hm : m.all p = true)
    (h : m.look i = some v) : p (i, v) = true := by
  induction m with
  | nil => simp [Sparse.look] at h
  | cons q m ih =>
    obtain ⟨k, w⟩ := q
    simp only [List.all_cons, Bool.and_eq_true] at hm
    by_cases h1 : k = i
    · subst h1; simp only [Sparse.look, if_true, Option.some.injEq] at h; subst h; exact hm.1
    · simp only [Sparse.look, h1, if_false] at h; exact ih hm.2 h

/-! ## The canonical form is kept -/

/-- A write keeps the keys rising. -/
theorem Sparse.rising_put {m : Sparse α} {i : Nat} {v : α} (hm : m.rising = true) : (m.put i v).rising = true := by
  induction m with
  | nil => simp [Sparse.put, Sparse.rising]
  | cons q m ih =>
    obtain ⟨k, w⟩ := q
    simp only [Sparse.rising, Bool.and_eq_true] at hm
    by_cases h1 : i < k
    · have hall : m.all (fun p => decide (i < p.1)) = true := by
        rw [List.all_eq_true] at hm ⊢
        intro x hx
        have := hm.1 x hx
        simp only [decide_eq_true_eq] at this ⊢
        omega
      simp [Sparse.put, h1, Sparse.rising, hm, hall]
    · by_cases h2 : k = i
      · subst h2; simp [Sparse.put, Sparse.rising, hm]
      · simp only [Sparse.put, h1, h2, if_false, Sparse.rising, Bool.and_eq_true]
        exact ⟨Sparse.all_put hm.1 (by simp; omega), ih hm.2⟩

/-- A removal keeps the keys rising. -/
theorem Sparse.rising_drop {m : Sparse α} {i : Nat} (hm : m.rising = true) : (m.drop i).rising = true := by
  induction m with
  | nil => rfl
  | cons q m ih =>
    obtain ⟨k, w⟩ := q
    simp only [Sparse.rising, Bool.and_eq_true] at hm
    by_cases h : k = i
    · simp [Sparse.drop, h, ih hm.2]
    · simp only [Sparse.drop, h, if_false, Sparse.rising, Bool.and_eq_true]
      exact ⟨Sparse.all_drop hm.1, ih hm.2⟩

/-! ## Chains -/

theorem putChain_rising {ix : Sparse (List Nat)} {b : Nat} {c : List Nat} (h : ix.rising = true) :
    (putChain ix b c).rising = true := by
  unfold putChain; split
  · exact Sparse.rising_drop h
  · exact Sparse.rising_put h

/-- Whatever every chain satisfied, every chain satisfies after a chain that satisfies it is written. -/
theorem putChain_all {p : Nat × List Nat → Bool} {ix : Sparse (List Nat)} {b : Nat} {c : List Nat}
    (h : ix.all p = true) (hc : c ≠ [] → p (b, c) = true) : (putChain ix b c).all p = true := by
  unfold putChain; split
  · exact Sparse.all_drop h
  · exact Sparse.all_put h (hc ‹_›)

@[simp] theorem chainAt_putChain_same (ix : Sparse (List Nat)) (b : Nat) (c : List Nat) :
    chainAt (putChain ix b c) b = c := by
  unfold chainAt putChain; split <;> simp_all

@[simp] theorem chainAt_putChain_other (ix : Sparse (List Nat)) {b d : Nat} (c : List Nat) (h : d ≠ b) :
    chainAt (putChain ix b c) d = chainAt ix d := by
  unfold chainAt putChain; split <;> simp_all

/-! ## Free lists -/

/-- What a take gives: the head of the list, and the list without it (R10, R33). -/
theorem FreeList.take_toList {f g : FreeList} {i : Nat} (h : f.take = some (i, g)) :
    f.toList = i :: g.toList := by
  unfold FreeList.take at h
  split at h
  · simp only [Option.some.injEq, Prod.mk.injEq] at h
    obtain ⟨rfl, rfl⟩ := h
    simp_all [FreeList.toList]
  · split at h
    · simp only [Option.some.injEq, Prod.mk.injEq] at h
      obtain ⟨rfl, rfl⟩ := h
      simp_all [FreeList.toList, List.drop_eq_getElem_cons]
    · simp at h

/-- A push stands at the head of the list. -/
@[simp] theorem FreeList.push_toList (f : FreeList) (i : Nat) : (f.push i).toList = i :: f.toList := rfl

/-- A full list holds every number below its limit, 0 at the head. -/
@[simp] theorem FreeList.full_toList (n : Nat) : (FreeList.full n).toList = List.range n := by
  simp [FreeList.toList, FreeList.full]

end Sys2Proof.Machine
end

