-- ==== Sys2Proof/Laws/Ops.lean ====
section
/-! SUPPORT. For each shared operation, what it can do, said once: the cases of its answer with the state each gives.
Proofs about a command cite these and do not unfold the operation. -/

namespace Sys2Proof.Machine
open Sys2Proof

variable {s t : State}

/-! ## Records and slots -/

@[simp] theorem State.record?_putRecord_same (s : State) (i : Nat) (r : Record) :
    (s.putRecord i r).record? i = some r := by simp [State.record?, State.putRecord]

@[simp] theorem State.record?_putRecord_other (s : State) {i j : Nat} (r : Record) (h : j ≠ i) :
    (s.putRecord i r).record? j = s.record? j := by simp [State.record?, State.putRecord, h]

@[simp] theorem State.record?_dropRecord_same (s : State) (i : Nat) : (s.dropRecord i).record? i = none := by
  simp [State.record?, State.dropRecord]

@[simp] theorem State.record?_dropRecord_other (s : State) {i j : Nat} (h : j ≠ i) :
    (s.dropRecord i).record? j = s.record? j := by simp [State.record?, State.dropRecord, h]

/-- A change reaches the record it names, when that record is not FREE. -/
@[simp] theorem State.record?_updateRecord_same (s : State) (i : Nat) (f : Record → Record) :
    (s.updateRecord i f).record? i = (s.record? i).map f := by
  unfold State.updateRecord; split <;> simp_all

@[simp] theorem State.record?_updateRecord_other (s : State) {i j : Nat} (f : Record → Record) (h : j ≠ i) :
    (s.updateRecord i f).record? j = s.record? j := by
  unfold State.updateRecord; split <;> simp [h]

@[simp] theorem State.slot_putSlot_same (s : State) (n : Nat) (v : Slot) : (s.putSlot n v).slot n = v := by
  unfold State.slot State.putSlot; split <;> simp_all

@[simp] theorem State.slot_putSlot_other (s : State) {n k : Nat} (v : Slot) (h : k ≠ n) :
    (s.putSlot n v).slot k = s.slot k := by
  unfold State.slot State.putSlot; split <;> simp [h]

/-- A change reaches the message of the slot it names, when that slot is not FREE. -/
@[simp] theorem State.message?_updateMessage_same (s : State) (n : Nat) (f : Message → Message) :
    (s.updateMessage n f).message? n = (s.message? n).map f := by
  unfold State.updateMessage; split <;> simp_all [State.message?]

@[simp] theorem State.message?_updateMessage_other (s : State) {n k : Nat} (f : Message → Message) (h : k ≠ n) :
    (s.updateMessage n f).message? k = s.message? k := by
  unfold State.updateMessage; split <;> simp [State.message?, h]

/-! ## The Command Link Unit -/

/-- A raised notice is stored, or sets the overflow mark when the queue holds 32 (R180). -/
theorem State.raise_cases (s : State) (k : NoticeKind) :
    (s.clu.notices.length < 32 ∧ s.raise k =
      { s with clu := { s.clu with notices := s.clu.notices ++ [{ kind := k, tick := s.pdu.tick }], attn := true } }) ∨
    (32 ≤ s.clu.notices.length ∧ s.raise k = { s with clu := { s.clu with overflow := true } }) := by
  unfold State.raise
  split
  · exact .inl ⟨‹_›, rfl⟩
  · rename_i h; exact .inr ⟨by simpa [Config.noticeQueue] using h, rfl⟩

@[simp] theorem State.raise_queue (s : State) (k : NoticeKind) : (s.raise k).clu.queue = s.clu.queue := by
  unfold State.raise; split <;> rfl
@[simp] theorem State.raise_inProgress (s : State) (k : NoticeKind) : (s.raise k).clu.inProgress = s.clu.inProgress := by
  unfold State.raise; split <;> rfl
@[simp] theorem State.raise_responses (s : State) (k : NoticeKind) : (s.raise k).clu.responses = s.clu.responses := by
  unfold State.raise; split <;> rfl
@[simp] theorem State.raise_exchange (s : State) (k : NoticeKind) : (s.raise k).clu.exchange = s.clu.exchange := by
  unfold State.raise; split <;> rfl
@[simp] theorem State.raise_dropped (s : State) (k : NoticeKind) : (s.raise k).clu.dropped = s.clu.dropped := by
  unfold State.raise; split <;> rfl
@[simp] theorem State.raise_resetSeen (s : State) (k : NoticeKind) : (s.raise k).clu.resetSeen = s.clu.resetSeen := by
  unfold State.raise; split <;> rfl

@[simp] theorem State.respond_responses (s : State) (r : Response) :
    (s.respond r).clu.responses = s.clu.responses ++ [r] := rfl
@[simp] theorem State.respond_attn (s : State) (r : Response) : (s.respond r).clu.attn = true := rfl
@[simp] theorem State.respond_notices (s : State) (r : Response) : (s.respond r).clu.notices = s.clu.notices := rfl
@[simp] theorem State.respond_queue (s : State) (r : Response) : (s.respond r).clu.queue = s.clu.queue := rfl
@[simp] theorem State.respond_inProgress (s : State) (r : Response) :
    (s.respond r).clu.inProgress = s.clu.inProgress := rfl

/-- A completion answers the command that holds the place, or does nothing where none holds it (R176). -/
theorem State.complete_cases (s : State) (place : Nat) (result : Result) (params : List Byte) :
    (∃ g ∈ s.clu.inProgress, g.place = place ∧ s.complete place result params =
      State.respond { s with clu := { s.clu with inProgress := s.clu.inProgress.erase g } }
        { code := g.code, tag := g.tag, result, params }) ∨
    ((∀ g ∈ s.clu.inProgress, g.place ≠ place) ∧ s.complete place result params = s) := by
  unfold State.complete
  split
  · rename_i g h
    exact .inl ⟨g, List.mem_of_find?_eq_some h, by simpa using List.find?_some h, rfl⟩
  · rename_i h
    refine .inr ⟨fun g hg hp => ?_, rfl⟩
    have := List.find?_eq_none.mp h g hg
    simp [hp] at this

/-- While the response FIFO is full no command starts (R175). -/
theorem State.start_full {code tag : Byte} {take : Nat → State → State × Reply} (h : s.responseFull = true) :
    s.start code tag take = s := by simp [State.start, h]

/-- A command that is answered in the event of its start (R176). -/
theorem State.start_now {code tag : Byte} {take : Nat → State → State × Reply} {result : Result} {params : List Byte}
    (h : s.responseFull = false) (ht : take s.freshPlace s = (t, .now result params)) :
    s.start code tag take = t.respond { code, tag, result, params } := by simp [State.start, h, ht]

/-- A command that stays in progress, holding its place (R176). -/
theorem State.start_later {code tag : Byte} {take : Nat → State → State × Reply}
    (h : s.responseFull = false) (ht : take s.freshPlace s = (t, .later)) :
    s.start code tag take =
      { t with clu := { t.clu with
          inProgress := t.clu.inProgress ++ [{ place := s.freshPlace, code, tag }] } } := by
  simp [State.start, h, ht]

/-! ## The extract -/

/-- An entry is written at the tail, or nothing into a full FIFO (R163). -/
theorem State.writeEntry_cases (s : State) (e : Entry) :
    (s.pdu.extract.length < 64 ∧ s.writeEntry e = { s with pdu := { s.pdu with extract := s.pdu.extract ++ [e] } }) ∨
    (64 ≤ s.pdu.extract.length ∧ s.writeEntry e = s) := by
  unfold State.writeEntry
  split
  · exact .inl ⟨‹_›, rfl⟩
  · rename_i h; exact .inr ⟨by simpa [Config.extractFifo] using h, rfl⟩

@[simp] theorem State.writeEntry_waiters (s : State) (e : Entry) : (s.writeEntry e).pdu.waiters = s.pdu.waiters := by
  unfold State.writeEntry; split <;> rfl
@[simp] theorem State.writeEntry_period (s : State) (e : Entry) : (s.writeEntry e).pdu.period = s.pdu.period := by
  unfold State.writeEntry; split <;> rfl
@[simp] theorem State.writeEntry_sweep (s : State) (e : Entry) : (s.writeEntry e).pdu.sweep = s.pdu.sweep := by
  unfold State.writeEntry; split <;> rfl
@[simp] theorem State.writeEntry_tick (s : State) (e : Entry) : (s.writeEntry e).pdu.tick = s.pdu.tick := by
  unfold State.writeEntry; split <;> rfl

/-- A closed record carries its period's reset counters and the current tag (R160). -/
@[simp] theorem State.record?_closeRecord (s : State) (i : Nat) (r : Record) :
    (s.closeRecord i r).record? i = some (r.closePeriod s.pdu.period) := by
  simp [State.closeRecord, State.record?, State.putRecord]

@[simp] theorem State.closeRecord_waiters (s : State) (i : Nat) (r : Record) :
    (s.closeRecord i r).pdu.waiters = s.pdu.waiters := by simp [State.closeRecord]
@[simp] theorem State.closeRecord_period (s : State) (i : Nat) (r : Record) :
    (s.closeRecord i r).pdu.period = s.pdu.period := by simp [State.closeRecord]
@[simp] theorem State.closeRecord_sweep (s : State) (i : Nat) (r : Record) :
    (s.closeRecord i r).pdu.sweep = s.pdu.sweep := by simp [State.closeRecord]

/-- A touch-sweep: nothing where none is due, else the closed record; none exactly where the entry has no room
(R162, R164). -/
theorem State.touch_cases (s : State) (anew : Bool) (i : Nat) :
    (s.record? i = none ∧ s.touch anew i = some s) ∨
    (∃ r, s.record? i = some r ∧ s.needsTouch r = false ∧ s.touch anew i = some s) ∨
    (∃ r, s.record? i = some r ∧ s.needsTouch r = true ∧ s.hasRoom anew 1 = true ∧
      s.touch anew i = some (s.closeRecord i r)) ∨
    (∃ r, s.record? i = some r ∧ s.needsTouch r = true ∧ s.hasRoom anew 1 = false ∧ s.touch anew i = none) := by
  unfold State.touch
  cases h : s.record? i with
  | none => simp
  | some r =>
    cases hn : s.needsTouch r <;> cases hr : s.hasRoom anew 1 <;> simp [hn]

/-- After a touch-sweep that is made or is not due, the record stands as pricing saw it (R56, R93). -/
theorem State.touch_record {anew : Bool} {i : Nat} {r : Record} (hr : s.record? i = some r)
    (h : s.touch anew i = some t) : t.record? i = some (s.asTouched r) := by
  rcases s.touch_cases anew i with ⟨h1, -⟩ | ⟨r', h1, h2, h3⟩ | ⟨r', h1, h2, -, h3⟩ | ⟨r', h1, h2, -, h3⟩
  · simp [h1] at hr
  · rw [h3] at h; cases h; rw [h1] at hr; cases hr; simp [State.asTouched, h2, h1]
  · rw [h3] at h; cases h; rw [h1] at hr; cases hr; simp [State.asTouched, h2]
  · simp [h3] at h

/-- The closing entry of a record and the end of its freeing: both entries written, or none of them (R24, R166). -/
theorem State.writeClosing_cases (s : State) (anew : Bool) (i : Nat) (holder : Holder) :
    (s.record? i = none ∧ s.writeClosing anew i holder = some s) ∨
    (∃ r, s.record? i = some r ∧ s.needsTouch r = false ∧ s.hasRoom anew 1 = true ∧
      s.writeClosing anew i holder = some (((s.writeEntry (r.entry i true)).releaseRecord i r).countFreed holder)) ∨
    (∃ r, s.record? i = some r ∧ s.needsTouch r = true ∧ s.hasRoom anew 2 = true ∧
      s.writeClosing anew i holder =
        some ((((s.closeRecord i r).writeEntry ((r.closePeriod s.pdu.period).entry i true)).releaseRecord i
          (r.closePeriod s.pdu.period)).countFreed holder)) ∨
    (∃ r, s.record? i = some r ∧ s.hasRoom anew (if s.needsTouch r then 2 else 1) = false ∧
      s.writeClosing anew i holder = none) := by
  unfold State.writeClosing
  cases h : s.record? i with
  | none => simp
  | some r =>
    cases hn : s.needsTouch r
    · cases hr : s.hasRoom anew 1 <;> simp [hn, hr, h]
    · cases hr : s.hasRoom anew 2 <;> simp [hn, hr]

/-- The freeing that a settlement begins: not due; made at once; or waiting for its closing entry (R24, R41). -/
theorem State.freeOwner_cases (s : State) (anew : Bool) (i : Nat) (holder : Holder) :
    (s.freeingDue i = false ∧ s.freeOwner anew i holder = (s, false)) ∨
    (s.freeingDue i = true ∧ ∃ t, (s.updateRecord i fun r => { r with closing := true }).writeClosing anew i holder =
      some t ∧ s.freeOwner anew i holder = (t, false)) ∨
    (s.freeingDue i = true ∧ (s.updateRecord i fun r => { r with closing := true }).writeClosing anew i holder = none ∧
      s.freeOwner anew i holder =
        ((s.updateRecord i fun r => { r with closing := true }).wait anew (.closing i holder), true)) := by
  unfold State.freeOwner State.beginFreeing
  cases hd : s.freeingDue i
  · simp
  · simp only [if_true]
    split
    · rename_i t ht; exact .inr (.inl ⟨trivial, t, ht, rfl⟩)
    · rename_i ht; exact .inr (.inr ⟨trivial, ht, rfl⟩)

/-! ## The message store -/

/-- A settlement of a slot that is not FREE is its three steps in order (R41). -/
theorem State.settle_eq {e : Ending} {n : Nat} {m : Message} (h : s.message? n = some m) :
    s.settle e n =
      (((s.takeOut n m.place).updateRecord m.owner fun r => r.settle e m s.pdu.period).freeSlot n m.owner) := by
  simp [State.settle, h]

/-- There is nothing to settle in a FREE slot. -/
theorem State.settle_free {e : Ending} {n : Nat} (h : s.message? n = none) : s.settle e n = s := by
  simp [State.settle, h]

/-- A parking abandons a released slot, and holds any other, after the eviction that a full held list asks for
(R146). -/
theorem State.park_cases {n : Nat} {m : Message} (h : s.message? n = some m) :
    (m.released = true ∧ s.park n = s.settle .abandoned n) ∨
    (m.released = false ∧ s.park n = ((s.takeOut n m.place).evictOldest m.owner).hold n m.owner) := by
  cases hr : m.released <;> simp [State.park, h, hr]

/-! ## The dispatch unit -/

/-- A move takes the staged slot, with its frame, into the sending buffer (R120). -/
theorem State.move_eq {b : Staged} (h : s.dsu.staging = some b) :
    s.move = { (s.updateMessage b.slot fun m => { m with place := .sending }) with dsu := { s.dsu with
      staging := none, sending := some { slot := b.slot, frame := b.frame, divider := s.dsu.divider },
      refusal := s.pins.reject } } := by
  simp [State.move, h]

/-- A take stages the head of the queue served, or parks it, or waits for extract space; a slot number that has no
message or no owner only leaves its queue (R111, R112). -/
theorem State.take_cases (s : State) (anew : Bool) :
    (s.dsu.serve = none ∧ s.take anew = s) ∨
    (∃ q, s.dsu.serve = some q ∧ s.dsu.queues.get q = [] ∧ s.take anew = s) ∨
    (∃ q n rest, s.dsu.serve = some q ∧ s.dsu.queues.get q = n :: rest ∧
      ((s.message? n = none ∧ s.take anew = s.popQueue q n rest) ∨
       ∃ m, s.message? n = some m ∧
        ((s.record? m.owner = none ∧ s.take anew = s.popQueue q n rest) ∨
         ∃ r, s.record? m.owner = some r ∧
          ((r.away = false ∧ s.take anew = (s.popQueue q n rest).stage n m r) ∨
           (r.away = true ∧ r.parkSettles m = false ∧ s.take anew = (s.popQueue q n rest).park n) ∨
           (r.away = true ∧ r.parkSettles m = true ∧ s.touch anew m.owner = none ∧
             s.take anew = s.wait anew .arbiter) ∨
           (r.away = true ∧ r.parkSettles m = true ∧ ∃ t, s.touch anew m.owner = some t ∧
             s.take anew = (((t.popQueue q n rest).park n).freeOwner anew m.owner (.alone false)).1))))) := by
  unfold State.take
  cases hq : s.dsu.serve with
  | none => simp
  | some q =>
    cases hl : s.dsu.queues.get q with
    | nil => simp [hl]
    | cons n rest =>
      refine .inr (.inr ⟨q, n, rest, rfl, hl, ?_⟩)
      cases hm : s.message? n with
      | none => simp [hl, hm]
      | some m =>
        refine .inr ⟨m, rfl, ?_⟩
        cases hr : s.record? m.owner with
        | none => simp [hl, hm, hr]
        | some r =>
          refine .inr ⟨r, rfl, ?_⟩
          cases ha : r.away
          · simp [hl, hm, hr, ha]
          · cases hp : r.parkSettles m
            · simp [hl, hm, hr, ha, hp]
            · cases ht : s.touch anew m.owner <;> simp [hl, hm, hr, ha, hp, ht]

/-- A resumption changes the sweep state alone, from STALLED to SWEEPING (R161). -/
theorem State.resumeSweep_cases (s : State) :
    (s.pdu.sweep = .stalled ∧ s.sweepBlocked = false ∧
      s.resumeSweep = { s with pdu := { s.pdu with sweep := .sweeping } }) ∨
    (¬ (s.pdu.sweep = .stalled ∧ s.sweepBlocked = false) ∧ s.resumeSweep = s) := by
  unfold State.resumeSweep; split <;> simp_all

/-- What the completion of a TRAFFIC RESET can do: nothing with none in progress or while one of the three things of R51
lacks; else the reset ends and its command is answered with the two counts. -/
theorem State.completeReset_cases (s : State) :
    ((s.msu.flush = none ∨ ∃ f, s.msu.flush = some f ∧ s.resetDone f = false) ∧ s.completeReset = s) ∨
    (∃ f, s.msu.flush = some f ∧ s.resetDone f = true ∧ s.completeReset =
      State.complete { s with msu := { s.msu with flush := none } } f.place .ok (nat2 f.flushed ++ nat2 f.freed)) := by
  unfold State.completeReset
  split
  · rename_i f hf
    by_cases h : s.resetDone f = true
    · exact .inr ⟨f, hf, h, if_pos h⟩
    · exact .inl ⟨.inr ⟨f, hf, Bool.eq_false_iff.mpr h⟩, if_neg h⟩
  · exact .inl ⟨.inl (by assumption), rfl⟩

/-- ZONE RESTORED: the mark cleared and the notice raised with a live set that is not empty, or nothing (R118). -/
theorem State.restoreZones_cases (s : State) :
    (s.dsu.outage = true ∧ s.liveZones ≠ 0 ∧ s.restoreZones =
      State.raise { s with dsu := { s.dsu with outage := false } } (.zoneRestored s.liveZones)) ∨
    ((s.dsu.outage = false ∨ s.liveZones = 0) ∧ s.restoreZones = s) := by
  unfold State.restoreZones; split <;> simp_all; grind

/-- ZONE OUTAGE: the mark set and the notice raised where R118 asks for it, or nothing. -/
theorem State.markOutage_cases (s : State) :
    (s.outageDue = true ∧ s.markOutage = State.raise { s with dsu := { s.dsu with outage := true } } .zoneOutage) ∨
    (s.outageDue = false ∧ s.markOutage = s) := by
  unfold State.markOutage; split <;> simp_all

/-! ## Acceptance -/

/-- An acceptance is refused by its checks, or waits for extract space, or is made; where it passes and is not made to
wait, a record and a free slot are there to make it (R91 to R94). -/
theorem State.accept_cases (s : State) (anew : Bool) (w : Waiter) (src : Source) (sub : Submission) :
    (∃ why figures, s.judge sub = .fail why figures ∧ s.accept anew w src sub = (s, .refused why figures)) ∨
    (∃ i c, s.judge sub = .pass i c ∧ s.touch anew i = none ∧ s.accept anew w src sub = (s.wait anew w, .waits)) ∨
    (∃ i c t r n free, s.judge sub = .pass i c ∧ s.touch anew i = some t ∧ t.record? i = some r ∧
      t.msu.free.take = some (n, free) ∧
      s.accept anew w src sub =
        (State.placeAccepted (t.allocate n free i r src sub.priority sub.body c) n sub.priority r.away,
          .made n i c r.away)) ∨
    (∃ i c t, s.judge sub = .pass i c ∧ s.touch anew i = some t ∧ (t.record? i = none ∨ t.msu.free.take = none) ∧
      s.accept anew w src sub = (t, .refused .storeFull [])) := by
  unfold State.accept
  cases hj : s.judge sub with
  | fail why figures => exact .inl ⟨why, figures, rfl, rfl⟩
  | pass i c =>
    cases ht : s.touch anew i with
    | none => exact .inr (.inl ⟨i, c, rfl, ht, by simp [ht]⟩)
    | some t =>
      cases hr : t.record? i with
      | none => exact .inr (.inr (.inr ⟨i, c, t, rfl, ht, .inl hr, by simp [ht, hr]⟩))
      | some r =>
        cases hf : t.msu.free.take with
        | none => exact .inr (.inr (.inr ⟨i, c, t, rfl, ht, .inr hf, by simp [ht, hr, hf]⟩))
        | some p =>
          obtain ⟨n, free⟩ := p
          exact .inr (.inr (.inl ⟨i, c, t, r, n, free, rfl, ht, hr, hf, by simp [ht, hr, hf]⟩))

/-! ## When a take is allowed, and the views of the outputs -/

/-- What a take needs: the five conditions of R108, and no completion waiting (R125). -/
theorem State.takeAllowed_iff (s : State) : s.takeAllowed = true ↔
    s.dsu.staging = none ∧ 0 < s.dsu.queues.total ∧ s.liveZones ≠ 0 ∧ s.resetting = false ∧ s.arbiterWaits = false ∧
      s.completionWaits = false := by
  simp [State.takeAllowed, and_assoc]

/-- As many bytes are shifted on MISO as the host clocks (R171). -/
@[simp] theorem Exchange.shifted_length (x : Exchange) (n : Nat) : (x.shifted n).length = n := by
  simp [Exchange.shifted]; omega

/-- A reply's characters are sent one after another (R79, R95). -/
@[simp] theorem Line.replyBits_cons (l : Line) (c : Byte) (rest : List Byte) :
    Line.replyBits { l with reply := c :: rest } =
      l.characterBits c false ++ Line.replyBits { l with reply := rest } := rfl

/-- The data bits as sent make the byte that was sent (R79, R130). -/
@[simp] theorem byteOfLsbFirst_lsbFirst (b : Byte) : byteOfLsbFirst (lsbFirst b) = b := by
  revert b; decide

/-- All that the sampling of one character can answer: its data byte, and the levels after it by the format (R79, R130). -/
theorem sampleCharacter_lsbFirst (marked : Bool) (p : Parity) (data : Byte) (rest : List Bool) :
    sampleCharacter marked p (false :: (lsbFirst data ++ rest)) =
      match if marked then rest else false :: rest with
      | [] => none
      | mark :: rest =>
        match if p = .none then false :: rest else rest with
        | parity :: stop :: _ => some ⟨data, mark, parity, stop⟩
        | _ => none := by
  conv => rhs; rw [← byteOfLsbFirst_lsbFirst data]
  rfl

/-- MISO is driven while an exchange is in progress, and only then (R171). -/
@[simp] theorem State.misoBits_isSome (s : State) (n : Nat) : (s.misoBits n).isSome = s.clu.exchange.isSome := by
  simp [State.misoBits]

/-- Eight bits on MOSI make one byte, and a byte cut off makes none (R171, notes/assumptions/16.md). -/
theorem mosiBytes_length (bits : List Bool) : (mosiBytes bits).length = bits.length / 8 := by
  fun_induction mosiBytes bits with
  | case1 => simp_all; omega
  | case2 bits h =>
    simp only [List.length_nil]
    match bits with
    | [] | [_] | [_, _] | [_, _, _] | [_, _, _, _] | [_, _, _, _, _] | [_, _, _, _, _, _] | [_, _, _, _, _, _, _] => simp
    | b7 :: b6 :: b5 :: b4 :: b3 :: b2 :: b1 :: b0 :: rest => exact absurd rfl (h b7 b6 b5 b4 b3 b2 b1 b0 rest)

/-- The completion of a FORMAT reaches the table's records, indexes and free list, the store's slots and free list, and
the answer to the FORMAT (R12). -/
theorem State.completeFormat_frame (s : State) :
    (s.completeFormat).pins = s.pins ∧ (s.completeFormat).chu = s.chu ∧ (s.completeFormat).lines = s.lines ∧
    (s.completeFormat).dsu = s.dsu ∧ (s.completeFormat).rla = s.rla ∧ (s.completeFormat).rlb = s.rlb ∧
    (s.completeFormat).aru = s.aru ∧ (s.completeFormat).pdu = s.pdu ∧ (s.completeFormat).pending = s.pending := by
  unfold State.completeFormat; split <;> simp

end Sys2Proof.Machine
end

