-- ==== Sys2Proof/Laws/PerInstr.lean ====
section
/-! SUPPORT. One statement per command, proved constructor by constructor: the parameter bytes that a well-formed host
command writes are read back, under its code and tag, as that command (R188). -/

namespace Sys2Proof

/-! ## Multi-byte numbers -/

@[simp] theorem join2_bytes (w : BitVec 16) : join2 (w.extractLsb' 8 8) (w.extractLsb' 0 8) = w := by
  unfold join2
  ext i hi
  simp only [BitVec.getElem_append, BitVec.getElem_extractLsb']
  split <;> rw [BitVec.getLsbD_eq_getElem (by omega)] <;> congr 1 <;> omega

@[simp] theorem join3_bytes (w : BitVec 24) :
    join3 (w.extractLsb' 16 8) (w.extractLsb' 8 8) (w.extractLsb' 0 8) = w := by
  unfold join3
  ext i hi
  simp only [BitVec.getElem_append, BitVec.getElem_extractLsb']
  split <;> (try split) <;> rw [BitVec.getLsbD_eq_getElem (by omega)] <;> congr 1 <;> omega

@[simp] theorem join4_bytes (w : BitVec 32) :
    join4 (w.extractLsb' 24 8) (w.extractLsb' 16 8) (w.extractLsb' 8 8) (w.extractLsb' 0 8) = w := by
  unfold join4
  ext i hi
  simp only [BitVec.getElem_append, BitVec.getElem_extractLsb']
  split <;> (try split) <;> (try split) <;> rw [BitVec.getLsbD_eq_getElem (by omega)] <;> congr 1 <;> omega

/-! ## The changes of ALTER -/

/-- The mask bits of the eight changes, over their presence alone. -/
theorem mask_bits : ∀ b0 b1 b2 b3 b4 b5 b6 b7 : Bool,
    let m : Byte := (if b0 then 0x01 else 0) ||| (if b1 then 0x02 else 0) ||| (if b2 then 0x04 else 0) |||
      (if b3 then 0x08 else 0) ||| (if b4 then 0x10 else 0) ||| (if b5 then 0x20 else 0) |||
      (if b6 then 0x40 else 0) ||| (if b7 then 0x80 else 0)
    m.getLsbD 0 = b0 ∧ m.getLsbD 1 = b1 ∧ m.getLsbD 2 = b2 ∧ m.getLsbD 3 = b3 ∧ m.getLsbD 4 = b4 ∧
      m.getLsbD 5 = b5 ∧ m.getLsbD 6 = b6 ∧ m.getLsbD 7 = b7 := by decide

/-- Reading back a change that is present or not. -/
theorem takeChange_present {α : Type} {read : List Byte → Option (α × List Byte)} {bytes : α → List Byte}
    (h : ∀ v rest, read (bytes v ++ rest) = some (v, rest)) (o : Option α) (rest : List Byte) :
    takeChange o.isSome read (present bytes o ++ rest) = some (o, rest) := by
  cases o <;> simp [takeChange, present, h]

theorem read3_bytes (v : BitVec 24) (rest : List Byte) : read3 (bytes3 v ++ rest) = some (v, rest) := by
  simp [read3, bytes3]
theorem read2_bytes (v : BitVec 16) (rest : List Byte) : read2 (bytes2 v ++ rest) = some (v, rest) := by
  simp [read2, bytes2]
theorem read1_bytes (v : Byte) (rest : List Byte) : read1 ([v] ++ rest) = some (v, rest) := by simp [read1]
theorem readPlan_bytes (v : Byte × BitVec 24) (rest : List Byte) :
    readPlan ((v.1 :: bytes3 v.2) ++ rest) = some (v, rest) := by simp [readPlan, bytes3]

/-- The changes of ALTER are read back. -/
theorem readAlter_bytes (a : AlterArgs) :
    readAlter a.number a.mask (present bytes3 a.newNumber ++ present bytes3 a.newAddress ++
      present (fun b => [b]) a.newClass ++ present (fun b => [b]) a.newKind ++ present bytes2 a.newZones ++
      present bytes3 a.newCeiling ++ present bytes2 a.newAllowance ++ present (fun p => p.1 :: bytes3 p.2) a.newPlan) =
      some a := by
  obtain ⟨h0, h1, h2, h3, h4, h5, h6, h7⟩ := mask_bits a.newNumber.isSome a.newAddress.isSome a.newClass.isSome
    a.newKind.isSome a.newZones.isSome a.newCeiling.isSome a.newAllowance.isSome a.newPlan.isSome
  have hp := takeChange_present readPlan_bytes a.newPlan []
  simp only [List.append_nil] at hp
  simp only [readAlter, AlterArgs.mask, h0, h1, h2, h3, h4, h5, h6, h7, List.append_assoc,
    takeChange_present read3_bytes, takeChange_present read2_bytes, takeChange_present read1_bytes, hp,
    Option.bind_eq_bind, Option.bind_some, List.isEmpty_nil, if_true]

end Sys2Proof

namespace Sys2Proof.Laws.FrameRoundTrip
open Sys2Proof

/-- The parameter bytes of a well-formed host command are read back as that command. -/
def Statement (i : Instr) : Prop :=
  i.wellFormed = true → ∀ code, i.commandCode = some code → parseCommand code i.hostTag i.parameters = .command i

/-- Every command but those of varying length: the bytes are a list of fixed length. -/
theorem of_fixed {i : Instr} {code : Byte} (hc : i.commandCode = some code)
    (h : readCommand code i.hostTag i.parameters = some (some i)) : Statement i := by
  intro _ c hcode
  rw [hc] at hcode
  cases hcode
  simp [parseCommand, h]

/-- An event of the part has no command code. -/
theorem of_event {i : Instr} (h : i.commandCode = none) : Statement i := by
  intro _ c hc
  simp [h] at hc

theorem hardwareReset : Statement (.hardwareReset) := of_event rfl

theorem exchangeBegin : Statement (.exchangeBegin) := of_event rfl

theorem statusByteReadOut : Statement (.statusByteReadOut) := of_event rfl

theorem exchangeEnd (mosi : List Byte) : Statement (.exchangeEnd mosi) := of_event rfl

theorem commandStart : Statement (.commandStart) := of_event rfl

theorem format (tag : Byte) (code : Byte) : Statement (.format tag code) :=
  of_fixed rfl (by simp [readCommand, Instr.hostTag, Instr.parameters, readByte])

theorem formatCompletion : Statement (.formatCompletion) := of_event rfl

theorem add (tag : Byte) (args : AddArgs) : Statement (.add tag args) :=
  of_fixed rfl (by simp [readCommand, Instr.hostTag, Instr.parameters, readAdd, bytes2, bytes3])

theorem alter (tag : Byte) (args : AlterArgs) : Statement (.alter tag args) := by
  refine of_fixed rfl ?_
  simp [readCommand, Instr.hostTag, Instr.parameters, AlterArgs.bytes, bytes3]
  have := readAlter_bytes args
  simp only [List.append_assoc] at this
  exact this

theorem suspend (tag : Byte) (number : BitVec 24) : Statement (.suspend tag number) :=
  of_fixed rfl (by simp [readCommand, Instr.hostTag, Instr.parameters, readThree, bytes3])

theorem resume (tag : Byte) (number : BitVec 24) : Statement (.resume tag number) :=
  of_fixed rfl (by simp [readCommand, Instr.hostTag, Instr.parameters, readThree, bytes3])

theorem retire (tag : Byte) (number : BitVec 24) (mode : Byte) : Statement (.retire tag number mode) :=
  of_fixed rfl (by simp [readCommand, Instr.hostTag, Instr.parameters, readThreeByte, bytes3])

theorem findNumber (tag : Byte) (number : BitVec 24) : Statement (.findNumber tag number) :=
  of_fixed rfl (by simp [readCommand, Instr.hostTag, Instr.parameters, readThree, bytes3])

theorem findAddress (tag : Byte) (address : BitVec 24) : Statement (.findAddress tag address) :=
  of_fixed rfl (by simp [readCommand, Instr.hostTag, Instr.parameters, readThree, bytes3])

theorem readRecord (tag : Byte) (index : BitVec 16) : Statement (.readRecord tag index) :=
  of_fixed rfl (by simp [readCommand, Instr.hostTag, Instr.parameters, readTwo, bytes2])

theorem cancel (tag : Byte) (reference : BitVec 16) : Statement (.cancel tag reference) :=
  of_fixed rfl (by simp [readCommand, Instr.hostTag, Instr.parameters, readTwo, bytes2])

theorem readMessage (tag : Byte) (reference : BitVec 16) : Statement (.readMessage tag reference) :=
  of_fixed rfl (by simp [readCommand, Instr.hostTag, Instr.parameters, readTwo, bytes2])

theorem trafficReset (tag : Byte) : Statement (.trafficReset tag) :=
  of_fixed rfl (by simp [readCommand, Instr.hostTag, Instr.parameters, readNone])

theorem flushWalkStep : Statement (.flushWalkStep) := of_event rfl

theorem setTariff (tag : Byte) (args : TariffArgs) : Statement (.setTariff tag args) := by
  intro hw code hc
  cases hc
  cases args with
  | tone base free rate =>
    simp [parseCommand, readCommand, Instr.hostTag, Instr.parameters, TariffArgs.bytes, readTariffArgs, bytes2]
  | numeric base free rate =>
    simp [parseCommand, readCommand, Instr.hostTag, Instr.parameters, TariffArgs.bytes, readTariffArgs, bytes2]
  | alpha base free rate =>
    simp [parseCommand, readCommand, Instr.hostTag, Instr.parameters, TariffArgs.bytes, readTariffArgs, bytes2]
  | multipliers mu md =>
    simp [parseCommand, readCommand, Instr.hostTag, Instr.parameters, TariffArgs.bytes, readTariffArgs]
  | other selector rest =>
    simp only [Instr.wellFormed, TariffArgs.wellFormed, Bool.and_eq_true, decide_eq_true_eq] at hw
    obtain ⟨-, hs, hr⟩ := hw
    have h0 : ¬ selector = 0#8 := by rintro rfl; simp at hs
    have h1 : ¬ selector = 1#8 := by rintro rfl; simp at hs
    have h2 : ¬ selector = 2#8 := by rintro rfl; simp at hs
    have h3 : ¬ selector = 3#8 := by rintro rfl; simp at hs
    simp [parseCommand, readCommand, Instr.hostTag, Instr.parameters, TariffArgs.bytes, readTariffArgs, h0, h1, h2, h3,
      hr]

theorem readTariff (tag : Byte) : Statement (.readTariff tag) :=
  of_fixed rfl (by simp [readCommand, Instr.hostTag, Instr.parameters, readNone])

theorem adjustBalance (tag : Byte) (number : BitVec 24) (amount : BitVec 32) : Statement (.adjustBalance tag number amount) :=
  of_fixed rfl (by simp [readCommand, Instr.hostTag, Instr.parameters, bytes3, bytes4])

theorem setLine (tag : Byte) (args : LineArgs) : Statement (.setLine tag args) := by
  intro hw code hc
  cases hc
  simp only [Instr.wellFormed, Bool.and_true, Instr.frameFits, decide_eq_true_eq, Instr.parameters, List.length_cons,
    List.length_append] at hw
  simp [parseCommand, readCommand, Instr.hostTag, Instr.parameters, readLineArgs, bytes2, Nat.mod_eq_of_lt,
    show args.stations.length < 256 by omega]

theorem enableLine (tag : Byte) (line : Byte) : Statement (.enableLine tag line) :=
  of_fixed rfl (by simp [readCommand, Instr.hostTag, Instr.parameters, readByte])

theorem disableLine (tag : Byte) (line : Byte) : Statement (.disableLine tag line) :=
  of_fixed rfl (by simp [readCommand, Instr.hostTag, Instr.parameters, readByte])

theorem lineStatus (tag : Byte) (line : Byte) : Statement (.lineStatus tag line) :=
  of_fixed rfl (by simp [readCommand, Instr.hostTag, Instr.parameters, readByte])

theorem submit (tag : Byte) (args : SubmitArgs) : Statement (.submit tag args) := by
  intro hw code hc
  cases hc
  simp only [Instr.wellFormed, Bool.and_true, Instr.frameFits, decide_eq_true_eq, Instr.parameters, List.length_cons,
    List.length_append] at hw
  simp [parseCommand, readCommand, Instr.hostTag, Instr.parameters, readSubmitArgs, bytes3, Nat.mod_eq_of_lt,
    show args.body.length < 256 by omega]

theorem setZones (tag : Byte) (zones : ZoneSet) : Statement (.setZones tag zones) :=
  of_fixed rfl (by simp [readCommand, Instr.hostTag, Instr.parameters, readTwo, bytes2])

theorem setOverride (tag : Byte) (zones : ZoneSet) (value : Byte) : Statement (.setOverride tag zones value) :=
  of_fixed rfl (by simp [readCommand, Instr.hostTag, Instr.parameters, bytes2])

theorem zoneStatus (tag : Byte) : Statement (.zoneStatus tag) :=
  of_fixed rfl (by simp [readCommand, Instr.hostTag, Instr.parameters, readNone])

theorem setTransmitter (tag : Byte) (divider : Byte) : Statement (.setTransmitter tag divider) :=
  of_fixed rfl (by simp [readCommand, Instr.hostTag, Instr.parameters, readByte])

theorem holdDispatch (tag : Byte) (value : Byte) : Statement (.holdDispatch tag value) :=
  of_fixed rfl (by simp [readCommand, Instr.hostTag, Instr.parameters, readByte])

theorem setArbiter (tag : Byte) (mode : Byte) : Statement (.setArbiter tag mode) :=
  of_fixed rfl (by simp [readCommand, Instr.hostTag, Instr.parameters, readByte])

theorem dispatchStatus (tag : Byte) : Statement (.dispatchStatus tag) :=
  of_fixed rfl (by simp [readCommand, Instr.hostTag, Instr.parameters, readNone])

theorem setReturnLink (tag : Byte) (args : LinkArgs) : Statement (.setReturnLink tag args) :=
  of_fixed rfl (by simp [readCommand, Instr.hostTag, Instr.parameters, bytes2])

theorem enableReturnLink (tag : Byte) (link : Byte) : Statement (.enableReturnLink tag link) :=
  of_fixed rfl (by simp [readCommand, Instr.hostTag, Instr.parameters, readByte])

theorem disableReturnLink (tag : Byte) (link : Byte) : Statement (.disableReturnLink tag link) :=
  of_fixed rfl (by simp [readCommand, Instr.hostTag, Instr.parameters, readByte])

theorem setRetry (tag : Byte) (w0 : BitVec 16) (aMax : Byte) (hold : BitVec 16) : Statement (.setRetry tag w0 aMax hold) :=
  of_fixed rfl (by simp [readCommand, Instr.hostTag, Instr.parameters, bytes2])

theorem returnStatus (tag : Byte) : Statement (.returnStatus tag) :=
  of_fixed rfl (by simp [readCommand, Instr.hostTag, Instr.parameters, readNone])

theorem setTimebase (tag : Byte) (p : BitVec 16) (e : Byte) : Statement (.setTimebase tag p e) :=
  of_fixed rfl (by simp [readCommand, Instr.hostTag, Instr.parameters, bytes2])

theorem setClock (tag : Byte) (minute : BitVec 24) : Statement (.setClock tag minute) :=
  of_fixed rfl (by simp [readCommand, Instr.hostTag, Instr.parameters, readThree, bytes3])

theorem setClose (tag : Byte) (minute : BitVec 24) (auto : Byte) : Statement (.setClose tag minute auto) :=
  of_fixed rfl (by simp [readCommand, Instr.hostTag, Instr.parameters, readThreeByte, bytes3])

theorem closePeriod (tag : Byte) : Statement (.closePeriod tag) :=
  of_fixed rfl (by simp [readCommand, Instr.hostTag, Instr.parameters, readNone])

theorem readExtract (tag : Byte) (count : Byte) : Statement (.readExtract tag count) :=
  of_fixed rfl (by simp [readCommand, Instr.hostTag, Instr.parameters, readByte])

theorem periodStatus (tag : Byte) : Statement (.periodStatus tag) :=
  of_fixed rfl (by simp [readCommand, Instr.hostTag, Instr.parameters, readNone])

theorem status (tag : Byte) : Statement (.status tag) :=
  of_fixed rfl (by simp [readCommand, Instr.hostTag, Instr.parameters, readNone])

theorem readNotices (tag : Byte) (count : Byte) : Statement (.readNotices tag count) :=
  of_fixed rfl (by simp [readCommand, Instr.hostTag, Instr.parameters, readByte])

theorem intakeCharacterReceived (line : Fin 4) (data : Byte) (mark : Bool) (parity : Bool) (stop : Bool) : Statement (.intakeCharacterReceived line data mark parity stop) := of_event rfl

theorem characterTaken (line : Fin 4) : Statement (.characterTaken line) := of_event rfl

theorem interCharacterTimerExpiry (line : Fin 4) : Statement (.interCharacterTimerExpiry line) := of_event rfl

theorem pollSent (line : Fin 4) : Statement (.pollSent line) := of_event rfl

theorem stationWaitExpiry (line : Fin 4) : Statement (.stationWaitExpiry line) := of_event rfl

theorem replyComplete (line : Fin 4) : Statement (.replyComplete line) := of_event rfl

theorem acceptance (line : Fin 4) : Statement (.acceptance line) := of_event rfl

theorem arbiterTake : Statement (.arbiterTake) := of_event rfl

theorem moveToSending : Statement (.moveToSending) := of_event rfl

theorem frameCompletion : Statement (.frameCompletion) := of_event rfl

theorem readyChange (level : Bool) : Statement (.readyChange level) := of_event rfl

theorem rejectRise (level : Bool) : Statement (.rejectRise level) := of_event rfl

theorem eholdChange (level : Bool) : Statement (.eholdChange level) := of_event rfl

theorem zoneStatusChange (zone : Fin 16) (level : Bool) : Statement (.zoneStatusChange zone level) := of_event rfl

theorem returnCharacterReceived (link : Link) (data : Byte) (parity : Bool) (stop : Bool) : Statement (.returnCharacterReceived link data parity stop) := of_event rfl

theorem reportTimeout (link : Link) : Statement (.reportTimeout link) := of_event rfl

theorem reportTaken (link : Link) : Statement (.reportTaken link) := of_event rfl

theorem expiry : Statement (.expiry) := of_event rfl

theorem tick : Statement (.tick) := of_event rfl

theorem minuteAdvance : Statement (.minuteAdvance) := of_event rfl

theorem sweepVisit : Statement (.sweepVisit) := of_event rfl

theorem extractWaiterTurn : Statement (.extractWaiterTurn) := of_event rfl

end Sys2Proof.Laws.FrameRoundTrip
end

