-- ==== Sys2Proof/Laws/Store.lean ====
section
/-! SUPPORT. What is read of slots and records after the shared operations of the message store: after a touch-sweep, a
settlement, a parking and the freeing of an owner. -/

namespace Sys2Proof.Machine
open Sys2Proof

variable {s t : State}

/-! ## Reading depends on the table alone -/

theorem State.message?_congr (h : t.msu.slots = s.msu.slots) (n : Nat) : t.message? n = s.message? n := by
  simp [State.message?, State.slot, h]

theorem State.slot_congr (h : t.msu.slots = s.msu.slots) (n : Nat) : t.slot n = s.slot n := by simp [State.slot, h]

theorem State.record?_congr (h : t.stu.records = s.stu.records) (i : Nat) : t.record? i = s.record? i := by
  simp [State.record?, h]

@[simp] theorem State.message?_putRecord (s : State) (i : Nat) (r : Record) (n : Nat) :
    (s.putRecord i r).message? n = s.message? n := rfl
@[simp] theorem State.slot_putRecord (s : State) (i : Nat) (r : Record) (n : Nat) :
    (s.putRecord i r).slot n = s.slot n := rfl
@[simp] theorem State.message?_updateRecord (s : State) (i : Nat) (f : Record → Record) (n : Nat) :
    (s.updateRecord i f).message? n = s.message? n := State.message?_congr (by simp) n
@[simp] theorem State.slot_updateRecord (s : State) (i : Nat) (f : Record → Record) (n : Nat) :
    (s.updateRecord i f).slot n = s.slot n := State.slot_congr (by simp) n
@[simp] theorem State.message?_takeOut (s : State) (n : Nat) (p : Place) (k : Nat) :
    (s.takeOut n p).message? k = s.message? k := State.message?_congr (by simp) k
@[simp] theorem State.slot_takeOut (s : State) (n : Nat) (p : Place) (k : Nat) :
    (s.takeOut n p).slot k = s.slot k := State.slot_congr (by simp) k
@[simp] theorem State.record?_takeOut (s : State) (n : Nat) (p : Place) (i : Nat) :
    (s.takeOut n p).record? i = s.record? i := State.record?_congr (by simp) i
@[simp] theorem State.record?_putSlot (s : State) (n : Nat) (v : Slot) (i : Nat) :
    (s.putSlot n v).record? i = s.record? i := rfl
@[simp] theorem State.record?_updateMessage (s : State) (n : Nat) (f : Message → Message) (i : Nat) :
    (s.updateMessage n f).record? i = s.record? i := State.record?_congr (by simp) i
@[simp] theorem State.message?_enqueue (s : State) (q : QueueName) (n k : Nat) :
    (s.enqueue q n).message? k = s.message? k := rfl
@[simp] theorem State.record?_enqueue (s : State) (q : QueueName) (n i : Nat) :
    (s.enqueue q n).record? i = s.record? i := rfl
@[simp] theorem State.message?_requeue (s : State) (q : QueueName) (n k : Nat) :
    (s.requeue q n).message? k = s.message? k := rfl
@[simp] theorem State.message?_putReceiver (s : State) (l : Link) (r : Receiver) (k : Nat) :
    (s.putReceiver l r).message? k = s.message? k := State.message?_congr (by simp) k
@[simp] theorem State.record?_putReceiver (s : State) (l : Link) (r : Receiver) (i : Nat) :
    (s.putReceiver l r).record? i = s.record? i := State.record?_congr (by simp) i
@[simp] theorem State.receiver_putReceiver (s : State) (l : Link) (r : Receiver) :
    (s.putReceiver l r).receiver l = r := by cases l <;> rfl

/-! ## The touch-sweep -/

/-- A touch-sweep reaches its own record, the extract FIFO and the entry count, and nothing else (R160, R162). -/
theorem State.touch_frame {anew : Bool} {i : Nat} (h : s.touch anew i = some t) :
    t.pins = s.pins ∧ t.msu = s.msu ∧ t.chu = s.chu ∧ t.lines = s.lines ∧ t.dsu = s.dsu ∧ t.rla = s.rla ∧
    t.rlb = s.rlb ∧ t.aru = s.aru ∧ t.clu = s.clu ∧ t.pending = s.pending ∧ (∀ j, j ≠ i → t.record? j = s.record? j) ∧
    t.stu = { s.stu with records := t.stu.records } ∧ t.pdu.period = s.pdu.period ∧ t.pdu.tick = s.pdu.tick ∧
    t.pdu.waiters = s.pdu.waiters ∧ t.pdu.sweep = s.pdu.sweep := by
  rcases s.touch_cases anew i with ⟨-, h1⟩ | ⟨r, -, -, h1⟩ | ⟨r, -, -, -, h1⟩ | ⟨r, -, -, -, h1⟩ <;> rw [h1] at h <;>
    cases h
  · simp
  · simp
  · refine ⟨?_, ?_, ?_, ?_, ?_, ?_, ?_, ?_, ?_, ?_, ?_, ?_, ?_, ?_, ?_, ?_⟩
    case refine_11 => intro j hj; simp [State.closeRecord, State.record?, State.putRecord, hj, State.writeEntry]; split <;> rfl
    all_goals simp [State.closeRecord]
    all_goals simp [State.putRecord]

/-- After a touch-sweep the record needs none. -/
theorem State.touch_needs {anew : Bool} {i : Nat} {r : Record} (h : s.touch anew i = some t) (hr : t.record? i = some r) :
    t.needsTouch r = false := by
  rcases s.touch_cases anew i with ⟨h0, h1⟩ | ⟨r', h0, h2, h1⟩ | ⟨r', h0, -, -, h1⟩ | ⟨r', h0, -, -, h1⟩ <;> rw [h1] at h <;>
    cases h
  · rw [h0] at hr; cases hr
  · rw [h0] at hr; cases hr; exact h2
  · simp at hr; subst hr; simp [State.needsTouch, Record.closePeriod]

/-- A touch-sweep leaves the fields that are not period counters. -/
theorem State.touch_fields {anew : Bool} {i : Nat} {r r' : Record} (h : s.touch anew i = some t)
    (hr : s.record? i = some r) (hr' : t.record? i = some r') :
    r'.state = r.state ∧ r'.number = r.number ∧ r'.address = r.address ∧ r'.cls = r.cls ∧ r'.kind = r.kind ∧
    r'.zones = r.zones ∧ r'.presence = r.presence ∧ r'.plan = r.plan ∧ r'.pending = r.pending ∧
    r'.allowance = r.allowance ∧ r'.live = r.live ∧ r'.held = r.held ∧ r'.nextTag = r.nextTag ∧
    r'.closing = r.closing := by
  rw [State.touch_record hr h] at hr'
  cases hr'
  unfold State.asTouched
  split <;> simp [Record.closePeriod]

/-! ## Freeing a slot and settling it -/

@[simp] theorem State.message?_raiseFree (s : State) (n : Nat) : s.raiseFree.message? n = s.message? n := by
  apply State.message?_congr; unfold State.raiseFree; split <;> simp
@[simp] theorem State.slot_raiseFree (s : State) (n : Nat) : s.raiseFree.slot n = s.slot n := by
  apply State.slot_congr; unfold State.raiseFree; split <;> simp
@[simp] theorem State.record?_raiseFree (s : State) (i : Nat) : s.raiseFree.record? i = s.record? i :=
  State.record?_congr (by simp) i
@[simp] theorem State.raiseFree_free (s : State) : s.raiseFree.msu.free = s.msu.free := by
  unfold State.raiseFree; split <;> simp
@[simp] theorem State.raiseFree_freeCount (s : State) : s.raiseFree.msu.freeCount = s.msu.freeCount + 1 := by
  unfold State.raiseFree; split <;> simp
@[simp] theorem State.raiseFree_flush (s : State) : s.raiseFree.msu.flush = s.msu.flush := by
  unfold State.raiseFree; split <;> simp

theorem State.freeSlot_eq (s : State) (n owner : Nat) : s.freeSlot n owner = State.raiseFree
    { (s.updateRecord owner fun r => { r with live := r.live.erase n, held := r.held.erase n }).putSlot n
        { s.slot n with message := none } with
      msu := { ((s.updateRecord owner fun r => { r with live := r.live.erase n, held := r.held.erase n }).putSlot n
        { s.slot n with message := none }).msu with free := s.msu.free.push n } } := by
  simp [State.freeSlot, State.putSlot]

/-- A freed slot is FREE with its reuse count kept (R42). -/
@[simp] theorem State.slot_freeSlot_same (s : State) (n owner : Nat) :
    (s.freeSlot n owner).slot n = { s.slot n with message := none } := by
  rw [State.freeSlot_eq, State.slot_raiseFree]
  exact State.slot_putSlot_same _ _ _

@[simp] theorem State.slot_freeSlot_other (s : State) {n k : Nat} (owner : Nat) (h : k ≠ n) :
    (s.freeSlot n owner).slot k = s.slot k := by
  rw [State.freeSlot_eq, State.slot_raiseFree]
  exact (State.slot_putSlot_other _ _ h).trans (by simp)

@[simp] theorem State.record?_freeSlot_owner (s : State) (n owner : Nat) :
    (s.freeSlot n owner).record? owner =
      (s.record? owner).map fun r => { r with live := r.live.erase n, held := r.held.erase n } := by
  rw [State.freeSlot_eq, State.record?_raiseFree]
  exact State.record?_updateRecord_same _ _ _

@[simp] theorem State.record?_freeSlot_other (s : State) (n : Nat) {owner i : Nat} (h : i ≠ owner) :
    (s.freeSlot n owner).record? i = s.record? i := by
  rw [State.freeSlot_eq, State.record?_raiseFree]
  exact State.record?_updateRecord_other _ _ h

@[simp] theorem State.freeSlot_free (s : State) (n owner : Nat) : (s.freeSlot n owner).msu.free = s.msu.free.push n := by
  rw [State.freeSlot_eq]; simp
@[simp] theorem State.freeSlot_freeCount (s : State) (n owner : Nat) :
    (s.freeSlot n owner).msu.freeCount = s.msu.freeCount + 1 := by rw [State.freeSlot_eq]; simp [State.putSlot]
@[simp] theorem State.freeSlot_flush (s : State) (n owner : Nat) : (s.freeSlot n owner).msu.flush = s.msu.flush := by
  rw [State.freeSlot_eq]; simp [State.putSlot]

/-- A settled slot is FREE, its reuse count kept (R41, R42). -/
theorem State.slot_settle_same {e : Ending} {n : Nat} {m : Message} (h : s.message? n = some m) :
    (s.settle e n).slot n = { s.slot n with message := none } := by simp [State.settle_eq h]

theorem State.message?_settle_same (s : State) (e : Ending) (n : Nat) : (s.settle e n).message? n = none := by
  cases h : s.message? n with
  | none => simpa [State.settle_free h] using h
  | some m => simp [State.message?, State.slot_settle_same h]

theorem State.slot_settle_other (s : State) (e : Ending) {n k : Nat} (h : k ≠ n) :
    (s.settle e n).slot k = s.slot k := by
  cases hm : s.message? n with
  | none => simp [State.settle_free hm]
  | some m => simp [State.settle_eq hm, h]

theorem State.message?_settle_other (s : State) (e : Ending) {n k : Nat} (h : k ≠ n) :
    (s.settle e n).message? k = s.message? k := by simp [State.message?, State.slot_settle_other s e h]

/-- The owner of a settled slot: its counters by the settlement table, the slot out of both lists. -/
theorem State.record?_settle_owner {e : Ending} {n : Nat} {m : Message} {r : Record} (h : s.message? n = some m)
    (hr : s.record? m.owner = some r) :
    (s.settle e n).record? m.owner = some { r.settle e m s.pdu.period with
      live := (r.settle e m s.pdu.period).live.erase n, held := (r.settle e m s.pdu.period).held.erase n } := by
  simp [State.settle_eq h, hr]

theorem State.record?_settle_other {e : Ending} {n : Nat} {m : Message} (h : s.message? n = some m) {i : Nat}
    (hi : i ≠ m.owner) : (s.settle e n).record? i = s.record? i := by simp [State.settle_eq h, hi]

theorem State.settle_free_list {e : Ending} {n : Nat} {m : Message} (h : s.message? n = some m) :
    (s.settle e n).msu.free = s.msu.free.push n ∧ (s.settle e n).msu.freeCount = s.msu.freeCount + 1 ∧
    (s.settle e n).msu.flush = s.msu.flush := by simp [State.settle_eq h]

theorem State.settle_places {e : Ending} {n : Nat} {m : Message} (h : s.message? n = some m) :
    (s.settle e n).dsu = (s.takeOut n m.place).dsu ∧ (s.settle e n).aru = (s.takeOut n m.place).aru := by
  simp [State.settle_eq h]

@[simp] theorem Record.settle_live (r : Record) (e : Ending) (m : Message) (period : Nat) :
    (r.settle e m period).live = r.live := by
  cases e <;> simp [Record.settle, Record.chargeFinal, Record.countDelivery, Record.returnPage] <;> (try split) <;>
    (try split) <;> rfl
@[simp] theorem Record.settle_held (r : Record) (e : Ending) (m : Message) (period : Nat) :
    (r.settle e m period).held = r.held := by
  cases e <;> simp [Record.settle, Record.chargeFinal, Record.countDelivery, Record.returnPage] <;> (try split) <;>
    (try split) <;> rfl
@[simp] theorem Record.settle_state (r : Record) (e : Ending) (m : Message) (period : Nat) :
    (r.settle e m period).state = r.state := by
  cases e <;> simp [Record.settle, Record.chargeFinal, Record.countDelivery, Record.returnPage] <;> (try split) <;>
    (try split) <;> rfl
@[simp] theorem Record.settle_periodTag (r : Record) (e : Ending) (m : Message) (period : Nat) :
    (r.settle e m period).periodTag = r.periodTag := by
  cases e <;> simp [Record.settle, Record.chargeFinal, Record.countDelivery, Record.returnPage] <;> (try split) <;>
    (try split) <;> rfl

/-! ## Freeing an owner -/

@[simp] theorem State.record?_countFreed (s : State) (h : Holder) (i : Nat) :
    (s.countFreed h).record? i = s.record? i := State.record?_congr (by simp) i
@[simp] theorem State.record?_writeEntry (s : State) (e : Entry) (i : Nat) :
    (s.writeEntry e).record? i = s.record? i := State.record?_congr (by simp) i
@[simp] theorem State.record?_releaseRecord_same (s : State) (i : Nat) (r : Record) :
    (s.releaseRecord i r).record? i = none := by
  simp [State.releaseRecord, State.record?, State.dropRecord]
@[simp] theorem State.record?_releaseRecord_other (s : State) {i j : Nat} (r : Record) (h : j ≠ i) :
    (s.releaseRecord i r).record? j = s.record? j := by
  simp [State.releaseRecord, State.record?, State.dropRecord, State.unlinkAddress, h]
@[simp] theorem State.record?_closeRecord_other (s : State) {i j : Nat} (r : Record) (h : j ≠ i) :
    (s.closeRecord i r).record? j = s.record? j := by
  rw [State.record?_congr (s := (s.writeEntry (r.entry i false)).putRecord i (r.closePeriod s.pdu.period))
    (by simp [State.closeRecord])]
  simp [h]

/-- The freeing of a record leaves every slot and every other record. -/
theorem State.freeOwner_frame (s : State) (anew : Bool) (i : Nat) (holder : Holder) :
    (s.freeOwner anew i holder).1.msu.slots = s.msu.slots ∧ (s.freeOwner anew i holder).1.msu.free = s.msu.free ∧
    (s.freeOwner anew i holder).1.msu.freeCount = s.msu.freeCount ∧
    (s.freeOwner anew i holder).1.pins = s.pins ∧ (s.freeOwner anew i holder).1.chu = s.chu ∧
    (s.freeOwner anew i holder).1.lines = s.lines ∧ (s.freeOwner anew i holder).1.dsu = s.dsu ∧
    (s.freeOwner anew i holder).1.rla = s.rla ∧ (s.freeOwner anew i holder).1.rlb = s.rlb ∧
    (s.freeOwner anew i holder).1.aru = s.aru ∧
    (s.freeOwner anew i holder).1.clu.responses = s.clu.responses ∧
    (s.freeOwner anew i holder).1.clu.inProgress = s.clu.inProgress ∧
    (∀ j, j ≠ i → (s.freeOwner anew i holder).1.record? j = s.record? j) := by
  have hf : ∀ (u : State) (h : Holder), (u.countFreed h).msu.slots = u.msu.slots ∧ (u.countFreed h).msu.free = u.msu.free ∧
      (u.countFreed h).msu.freeCount = u.msu.freeCount := by
    intro u h; unfold State.countFreed; split <;> simp
  rcases s.freeOwner_cases anew i holder with ⟨-, h⟩ | ⟨-, u, hw, h⟩ | ⟨-, -, h⟩
  · simp [h]
  · rw [h]
    rcases State.writeClosing_cases (s.updateRecord i fun r => { r with closing := true }) anew i holder with
      ⟨-, h1⟩ | ⟨r, -, -, -, h1⟩ | ⟨r, -, -, -, h1⟩ | ⟨r, -, -, h1⟩ <;> rw [h1] at hw <;> cases hw
    · simp; intro j hj; simp [hj]
    · refine ⟨?_, ?_, ?_, ?_, ?_, ?_, ?_, ?_, ?_, ?_, ?_, ?_, ?_⟩
      case refine_1 => rw [(hf _ _).1]; simp
      case refine_2 => rw [(hf _ _).2.1]; simp
      case refine_3 => rw [(hf _ _).2.2]; simp
      case refine_13 => intro j hj; simp [hj]
      all_goals simp
      all_goals simp [State.releaseRecord]
    · refine ⟨?_, ?_, ?_, ?_, ?_, ?_, ?_, ?_, ?_, ?_, ?_, ?_, ?_⟩
      case refine_1 => rw [(hf _ _).1]; simp
      case refine_2 => rw [(hf _ _).2.1]; simp
      case refine_3 => rw [(hf _ _).2.2]; simp
      case refine_13 => intro j hj; simp [hj]
      all_goals simp
      all_goals simp [State.releaseRecord]
  · simp [h]; intro j hj
    rw [State.record?_congr (s := s.updateRecord i fun r => { r with closing := true }) (by simp)]
    simp [hj]

/-- No freeing is due of a record that is not RETIRING or keeps a live slot (R24). -/
theorem State.freeOwner_notDue {i : Nat} {r : Record} (anew : Bool) (holder : Holder) (hr : s.record? i = some r)
    (h : r.state ≠ .retiring ∨ r.live ≠ []) : s.freeOwner anew i holder = (s, false) := by
  have : s.freeingDue i = false := by
    simp only [State.freeingDue, hr, Option.any_some, Bool.and_eq_false_iff, beq_eq_false_iff_ne]
    rcases h with h | h
    · exact .inl h
    · right; cases hl : r.live <;> simp_all
  simp [State.freeOwner, this]

/-- A freeing that finds room for its closing entry is made (R24). -/
theorem State.freeOwner_room {i : Nat} {r : Record} {anew : Bool} (holder : Holder) (hr : s.record? i = some r)
    (h1 : r.state = .retiring) (h2 : r.live = []) (h3 : s.needsTouch r = false) (h4 : s.hasRoom anew 1 = true) :
    (s.freeOwner anew i holder).2 = false ∧ (s.freeOwner anew i holder).1.record? i = none ∧
    (s.freeOwner anew i holder).1.pdu = { s.pdu with extract := s.pdu.extract ++
      [({ r with closing := true } : Record).entry i true] } ∧
    (s.freeOwner anew i holder).1.stu.free = s.stu.free.push i ∧
    (s.freeOwner anew i holder).1.stu.freeCount = s.stu.freeCount + 1 := by
  have hd : s.freeingDue i = true := by simp [State.freeingDue, hr, h1, h2]
  have hr' : (s.updateRecord i fun r => { r with closing := true }).record? i = some { r with closing := true } := by
    simp [hr]
  have hn : (s.updateRecord i fun r => { r with closing := true }).needsTouch { r with closing := true } = false := by
    simpa [State.needsTouch, State.sweepInProgress] using h3
  have hroom : (s.updateRecord i fun r => { r with closing := true }).hasRoom anew 1 = true := by
    simpa [State.hasRoom] using h4
  have hlen : s.pdu.extract.length < 64 := by
    simp [State.hasRoom, Config.extractFifo] at h4; omega
  have he : s.freeOwner anew i holder =
      ((((s.updateRecord i fun r => { r with closing := true }).writeEntry
        (({ r with closing := true } : Record).entry i true)).releaseRecord i { r with closing := true }).countFreed
          holder, false) := by
    simp [State.freeOwner, hd, State.beginFreeing, State.writeClosing, hr', hn, hroom]
  rw [he]
  refine ⟨rfl, ?_, ?_, ?_, ?_⟩
  · simp
  · simp [State.writeEntry, Config.extractFifo, hlen]
  · simp [State.releaseRecord, State.dropRecord, State.unlinkAddress, State.updateRecord, hr, State.putRecord]
  · simp [State.releaseRecord, State.dropRecord, State.unlinkAddress, State.updateRecord, hr, State.putRecord]

/-- A freeing that finds no room leaves the record with its closing-pending mark, waiting (R24, R166). -/
theorem State.freeOwner_wait {i : Nat} {r : Record} {anew : Bool} (holder : Holder) (hr : s.record? i = some r)
    (h1 : r.state = .retiring) (h2 : r.live = []) (h3 : s.needsTouch r = false) (h4 : s.hasRoom anew 1 = false) :
    s.freeOwner anew i holder =
      ((s.updateRecord i fun r => { r with closing := true }).wait anew (.closing i holder), true) := by
  have hd : s.freeingDue i = true := by simp [State.freeingDue, hr, h1, h2]
  have hr' : (s.updateRecord i fun r => { r with closing := true }).record? i = some { r with closing := true } := by
    simp [hr]
  have hn : (s.updateRecord i fun r => { r with closing := true }).needsTouch { r with closing := true } = false := by
    simpa [State.needsTouch, State.sweepInProgress] using h3
  have hroom : (s.updateRecord i fun r => { r with closing := true }).hasRoom anew 1 = false := by
    simpa [State.hasRoom] using h4
  simp [State.freeOwner, hd, State.beginFreeing, State.writeClosing, hr', hn, hroom]

/-! ## Room -/

/-- Room for `n` entries outside a turn: nothing waits, and the FIFO has the places (R164). -/
theorem State.hasRoom_first (s : State) (n : Nat) :
    s.hasRoom false n = true ↔ s.pdu.waiters = [] ∧ s.pdu.extract.length + n ≤ 64 := by
  unfold State.hasRoom
  rw [Bool.false_or, Bool.and_eq_true, List.isEmpty_iff, decide_eq_true_iff]
  rfl

/-- Room for `n` entries at a turn: the FIFO has the places (R164). -/
theorem State.hasRoom_anew (s : State) (n : Nat) : s.hasRoom true n = true ↔ s.pdu.extract.length + n ≤ 64 := by
  unfold State.hasRoom
  rw [Bool.true_or, Bool.true_and, decide_eq_true_iff]
  rfl

/-! ## Allocation -/

@[simp] theorem State.slot_lowerFree (s : State) (n : Nat) : s.lowerFree.slot n = s.slot n := by
  apply State.slot_congr; unfold State.lowerFree; split <;> simp
@[simp] theorem State.record?_lowerFree (s : State) (i : Nat) : s.lowerFree.record? i = s.record? i :=
  State.record?_congr (by simp) i
@[simp] theorem State.lowerFree_free (s : State) : s.lowerFree.msu.free = s.msu.free := by
  unfold State.lowerFree; split <;> simp
@[simp] theorem State.lowerFree_freeCount (s : State) : s.lowerFree.msu.freeCount = s.msu.freeCount - 1 := by
  unfold State.lowerFree; split <;> simp

section
variable {n i : Nat} {free : FreeList} {r : Record} {src : Source} {p : Priority} {body : List Byte} {c : Nat}

/-- The allocated slot: its reuse count advanced, its message as the acceptance writes it (R30, R34, R35). -/
theorem State.slot_allocate_same :
    (s.allocate n free i r src p body c).slot n = Slot.mk (((s.slot n).reuse + 1) % 32)
      (some (newMessage i r (chooseTag (s.liveTags r) 17 r.nextTag) src p body c s.pdu.period)) := by
  simp only [State.allocate, State.slot_putRecord, State.slot_putSlot_same, State.slot_lowerFree]
  rfl

theorem State.slot_allocate_other {k : Nat} (h : k ≠ n) : (s.allocate n free i r src p body c).slot k = s.slot k := by
  simp only [State.allocate, State.slot_putRecord, State.slot_putSlot_other _ _ h, State.slot_lowerFree]
  rfl

/-- The record after the allocation: the charge reserved, the slot at the tail of its live list, the next tag (R62). -/
theorem State.record?_allocate_same : (s.allocate n free i r src p body c).record? i = some { r.reserve c with
    live := r.live ++ [n], nextTag := (chooseTag (s.liveTags r) 17 r.nextTag + 1) % 128 } := by
  simp only [State.allocate, State.record?_putRecord_same]

theorem State.record?_allocate_other {j : Nat} (h : j ≠ i) :
    (s.allocate n free i r src p body c).record? j = s.record? j := by
  simp only [State.allocate, State.record?_putRecord_other _ _ h, State.record?_putSlot, State.record?_lowerFree]
  rfl

theorem State.allocate_free : (s.allocate n free i r src p body c).msu.free = free ∧
    (s.allocate n free i r src p body c).msu.freeCount = s.msu.freeCount - 1 := by
  simp [State.allocate, State.putSlot]

theorem State.allocate_indexes :
    (s.allocate n free i r src p body c).stu.numberIndex = s.stu.numberIndex ∧
    (s.allocate n free i r src p body c).stu.addressIndex = s.stu.addressIndex ∧
    (s.allocate n free i r src p body c).stu.free = s.stu.free := by
  simp [State.allocate, State.putRecord]

end

/-! ## The timed list and parking -/

theorem mem_insertByDeadline {f : Nat → Tick} {n k : Nat} {d : Tick} {l : List Nat} :
    k ∈ insertByDeadline f n d l ↔ k = n ∨ k ∈ l := by
  induction l with
  | nil => simp [insertByDeadline]
  | cons x l ih =>
    unfold insertByDeadline
    split
    · simp only [List.mem_cons, ih]; tauto
    · simp

/-- A slot that joins the timed list is AWAITING or HELD as given (R142). -/
theorem State.message?_placeTimed_same (s : State) (n : Nat) (p : Place) (d : Tick) :
    (s.placeTimed n p d).message? n = (s.message? n).map fun m => { m with place := p } := by
  rw [State.message?_congr (s := s.updateMessage n fun m => { m with place := p }) (by simp [State.placeTimed])]
  simp

theorem State.message?_placeTimed_other (s : State) {n k : Nat} (p : Place) (d : Tick) (h : k ≠ n) :
    (s.placeTimed n p d).message? k = s.message? k := by
  rw [State.message?_congr (s := s.updateMessage n fun m => { m with place := p }) (by simp [State.placeTimed])]
  simp [h]

theorem State.mem_timed_placeTimed (s : State) (n : Nat) (p : Place) (d : Tick) :
    n ∈ (s.placeTimed n p d).aru.timed := by simp [State.placeTimed, mem_insertByDeadline]

@[simp] theorem State.record?_placeTimed (s : State) (n : Nat) (p : Place) (d : Tick) (i : Nat) :
    (s.placeTimed n p d).record? i = s.record? i := State.record?_congr (by simp) i

/-- A held slot: at the tail of its owner's held list, with the hold deadline (R144, R146). -/
theorem State.message?_hold_same (s : State) (n i : Nat) : (s.hold n i).message? n =
    (s.message? n).map fun m => { m with place := .held (s.deadlineIn (s.aru.hold * Config.minuteTicks)) } := by
  simp [State.hold, State.message?_placeTimed_same]

theorem State.message?_hold_other (s : State) {n k : Nat} (i : Nat) (h : k ≠ n) :
    (s.hold n i).message? k = s.message? k := by simp [State.hold, State.message?_placeTimed_other _ _ _ h]

theorem State.record?_hold_owner (s : State) (n i : Nat) :
    (s.hold n i).record? i = (s.record? i).map fun r => { r with held := r.held ++ [n] } := by simp [State.hold]

theorem State.record?_hold_other (s : State) (n : Nat) {i j : Nat} (h : j ≠ i) :
    (s.hold n i).record? j = s.record? j := by simp [State.hold, h]

theorem State.mem_timed_hold (s : State) (n i : Nat) : n ∈ (s.hold n i).aru.timed := by
  simp [State.hold, State.mem_timed_placeTimed]

/-- A held list with room needs no eviction. -/
theorem State.evictOldest_room {i : Nat} {r : Record} (hr : s.record? i = some r) (h : r.held.length < 4) :
    s.evictOldest i = s := by
  simp [State.evictOldest, hr, Config.heldLimit, Nat.not_le.mpr h]

/-- A full held list has its oldest slot settled ABANDONED (R146). -/
theorem State.evictOldest_full {i oldest : Nat} {r : Record} {rest : List Nat} (hr : s.record? i = some r)
    (h : r.held = oldest :: rest) (hl : 3 ≤ rest.length) : s.evictOldest i = s.settle .abandoned oldest := by
  have : Config.heldLimit ≤ r.held.length := by rw [h]; simp [Config.heldLimit, hl]
  simp only [State.evictOldest, hr, if_pos this]
  rw [h]

/-! ## Takes -/

theorem State.message?_popQueue_same (s : State) (q : QueueName) (n : Nat) (rest : List Nat) :
    (s.popQueue q n rest).message? n = (s.message? n).map fun m => { m with origin := q } := by
  simp only [State.popQueue, State.message?_updateMessage_same]
  rfl

theorem State.message?_popQueue_other (s : State) (q : QueueName) {n k : Nat} (rest : List Nat) (h : k ≠ n) :
    (s.popQueue q n rest).message? k = s.message? k := by
  simp only [State.popQueue, State.message?_updateMessage_other _ _ h]
  rfl

@[simp] theorem State.record?_popQueue (s : State) (q : QueueName) (n : Nat) (rest : List Nat) (i : Nat) :
    (s.popQueue q n rest).record? i = s.record? i := State.record?_congr (by simp) i

@[simp] theorem State.popQueue_dsu (s : State) (q : QueueName) (n : Nat) (rest : List Nat) :
    (s.popQueue q n rest).dsu = { s.dsu with queues := s.dsu.queues.set q rest, rotation := s.dsu.rotate q } := by
  simp [State.popQueue]

theorem Queues.erase_not_mem {q : Queues} {n : Nat} (h : ∀ p, n ∉ q.get p) : q.erase n = q := by
  have h1 := h .urgent
  have h2 := h .normal
  have h3 := h .deferred
  have h4 := h .retry
  simp only [Queues.get] at h1 h2 h3 h4
  simp [Queues.erase, List.erase_of_not_mem h1, List.erase_of_not_mem h2, List.erase_of_not_mem h3,
    List.erase_of_not_mem h4]

/-! ## What moving slots leaves of the table and of the store -/

/-- The table's state, capacity, free list and indexes are those of another state. -/
def Stu.sameFrame (a b : Stu) : Prop :=
  a.state = b.state ∧ a.capacity = b.capacity ∧ a.free = b.free ∧ a.freeCount = b.freeCount ∧
  a.numberIndex = b.numberIndex ∧ a.addressIndex = b.addressIndex ∧ a.formatPlace = b.formatPlace

theorem State.updateRecord_frame (s : State) (i : Nat) (f : Record → Record) :
    (s.updateRecord i f).stu.sameFrame s.stu := by
  unfold State.updateRecord; split <;> simp [Stu.sameFrame, State.putRecord]

@[simp] theorem State.updateMessage_free (s : State) (n : Nat) (f : Message → Message) :
    (s.updateMessage n f).msu.free = s.msu.free := by unfold State.updateMessage; split <;> simp [State.putSlot]
@[simp] theorem State.updateMessage_freeCount (s : State) (n : Nat) (f : Message → Message) :
    (s.updateMessage n f).msu.freeCount = s.msu.freeCount := by
  unfold State.updateMessage; split <;> simp [State.putSlot]
@[simp] theorem State.updateMessage_flush (s : State) (n : Nat) (f : Message → Message) :
    (s.updateMessage n f).msu.flush = s.msu.flush := by unfold State.updateMessage; split <;> simp [State.putSlot]

/-- A change of a slot's message keeps its reuse count. -/
@[simp] theorem State.updateMessage_reuse (s : State) (n k : Nat) (f : Message → Message) :
    ((s.updateMessage n f).slot k).reuse = (s.slot k).reuse := by
  unfold State.updateMessage
  split
  · by_cases h : k = n
    · subst h; simp
    · simp [h]
  · rfl

/-- A settlement keeps every reuse count. -/
@[simp] theorem State.settle_reuse (s : State) (e : Ending) (n k : Nat) :
    ((s.settle e n).slot k).reuse = (s.slot k).reuse := by
  cases hm : s.message? n with
  | none => simp [State.settle_free hm]
  | some m =>
    by_cases h : k = n
    · subst h; simp [State.slot_settle_same hm]
    · simp [State.slot_settle_other _ _ h]

theorem State.settle_frame (s : State) (e : Ending) (n : Nat) : (s.settle e n).stu.sameFrame s.stu := by
  cases hm : s.message? n with
  | none => simp [State.settle_free hm, Stu.sameFrame]
  | some m =>
    have h1 := State.updateRecord_frame ((s.takeOut n m.place).updateRecord m.owner fun r => r.settle e m s.pdu.period)
      m.owner fun r => { r with live := r.live.erase n, held := r.held.erase n }
    have h2 := State.updateRecord_frame (s.takeOut n m.place) m.owner fun r => r.settle e m s.pdu.period
    simp only [Stu.sameFrame, State.takeOut_stu] at h1 h2 ⊢
    simp only [State.settle_eq hm, State.freeSlot_eq, State.raiseFree_stu, State.putSlot_stu]
    simp only [h1, h2, and_self]

@[simp] theorem State.settle_hold (s : State) (e : Ending) (n : Nat) : (s.settle e n).aru.hold = s.aru.hold := by
  cases hm : s.message? n with
  | none => simp [State.settle_free hm]
  | some m =>
    rw [(State.settle_places (e := e) hm).2]
    cases m.place <;> rfl

theorem State.hold_frame (s : State) (n i : Nat) :
    (s.hold n i).stu.sameFrame s.stu ∧ (s.hold n i).msu.free = s.msu.free ∧
    (s.hold n i).msu.freeCount = s.msu.freeCount ∧ (s.hold n i).msu.flush = s.msu.flush ∧
    (∀ k, ((s.hold n i).slot k).reuse = (s.slot k).reuse) := by
  refine ⟨?_, ?_, ?_, ?_, ?_⟩
  · simpa [State.hold, State.placeTimed] using State.updateRecord_frame s i fun r => { r with held := r.held ++ [n] }
  · simp [State.hold, State.placeTimed]
  · simp [State.hold, State.placeTimed]
  · simp [State.hold, State.placeTimed]
  · intro k
    rw [State.slot_congr (s := (s.updateRecord i fun r => { r with held := r.held ++ [n] }).updateMessage n
      fun m => { m with place := .held (s.deadlineIn (s.aru.hold * Config.minuteTicks)) })
      (by simp [State.hold, State.placeTimed])]
    simp

end Sys2Proof.Machine
end

