-- ==== Sys2Proof/Tests/Slice0.lean ====
section
/-! SUPPORT. Small tests. Expected values come from the manual: its worked examples (3.2, 4.5, 9.1 to 9.7, the hash
case of 1.3) and its tables. A theorem `witness_X` shows states and operands that meet the hypotheses of the statement
X, clause by clause, at boundary values of the ranges. -/

namespace Sys2Proof.Tests
open Sys2Proof Sys2Proof.Machine

/-! ## States -/

/-- A READY table of 8,192 records, an empty store, and the tariff of the example of 3.2. -/
def base : State := { State.reset with
  stu := { State.reset.stu with state := .ready, capacity := 8192, free := .full 8192, freeCount := 8192 }
  msu := { State.reset.msu with free := .full 2048, freeCount := 2048 }
  chu := { State.reset.chu with alpha := ⟨40, 20, 6⟩, mu := 12, md := 6 } }

/-- A TWO-WAY ALPHA record of the subscriber and the pager of the manual's examples. -/
def pager : Record :=
  { state := .active, number := 5551234, address := 412345, cls := .alpha, kind := .twoWay, zones := 0x000C,
    presence := .unknown, plan := .account 0, pending := 51, charge := 0, saturated := false, allowance := 0,
    used := 0, delivered := 0, chars := 0, periodTag := 0, live := [], held := [], nextTag := 0, closing := false }

/-- The page "OK" of 9.2, QUEUED, with tag 7. -/
def page : Message :=
  { place := .queued, owner := 0, tag := 7, source := .commandLink, cls := .alpha, kind := .twoWay,
    priority := .normal, body := [0x4F, 0x4B], charge := 51, allowanceUsed := none, attempts := 0, aired := false,
    released := false, origin := .normal, ackPending := false, cancelPending := false }

/-- `base` with one record, at index 0. -/
def holding (r : Record) : State := ((base.linkNumber r.number 0).linkAddress r.address 0).putRecord 0 r

/-- `base` with one record and its slots, each with reuse count 3. -/
def carrying (r : Record) (slots : List (Nat × Message)) : State :=
  slots.foldl (fun s p => s.putSlot p.1 ⟨3, some p.2⟩) (holding { r with live := slots.map (·.1) })

/-- One slot, number 37, so that its reference is 3 × 2,048 + 37 = 6,181. -/
def one (m : Message) : State := carrying pager [(37, m)]

/-- The same while a sweep of period 1 is in progress, so that the record carries the old tag. -/
def sweeping (s : State) : State := { s with pdu := { s.pdu with period := 1, sweep := .sweeping } }

/-- Some extract entry. -/
def entry : Entry :=
  { number := 1, index := 1, address := 1, plan := .account 0, period := 0, delivered := 0, within := 0, chars := 0,
    charge := 0, saturated := false, pending := 0, closing := false }

/-- The extract FIFO with `n` entries. -/
def extractOf (n : Nat) (s : State) : State := { s with pdu := { s.pdu with extract := List.replicate n entry } }

/-- The list of waiters as given. -/
def waiting (ws : List Waiter) (s : State) : State := { s with pdu := { s.pdu with waiters := ws } }

/-- Every zone in service and live. -/
def live (s : State) : State := { s with pins := { s.pins with zst := 0xFFFF }, dsu := { s.dsu with service := 0xFFFF } }

/-- Slot 37 at the head of NORMAL. -/
def queued (s : State) : State := { s with dsu := { s.dsu with queues := ⟨[], [37], [], []⟩ } }

/-- The frame of slot 37 in the sending buffer. -/
def onAir (s : State) : State := { s with dsu := { s.dsu with
  sending := some ⟨37, ⟨0x0020, 412345, 7, .alpha, true, 1, [0x4F, 0x4B]⟩, 191⟩ } }

/-- The timed list as given. -/
def timedAt (l : List Nat) (s : State) : State := { s with aru := { s.aru with timed := l } }

/-- A response FIFO of 8 responses. -/
def full (s : State) : State := { s with clu := { s.clu with responses := List.replicate 8 ⟨0x80, 0, .ok, []⟩ } }

/-- The notice FIFO with `n` notices. -/
def noticesOf (n : Nat) (s : State) : State :=
  { s with clu := { s.clu with notices := List.replicate n ⟨.zoneOutage, 0⟩ } }

/-- Line 0 as given. -/
def lineIs (l : Line) (s : State) : State := s.putLine 0 l

/-- Link A as given. -/
def linkIs (r : Receiver) (s : State) : State := s.putReceiver .a r

/-- What a step answers, when it answers a next state. -/
def after (c : Instr) (s : State) : State :=
  match exec c s with
  | .next t => t
  | _ => s

/-! ## Well-formed commands -/

/-- A SUBMIT of 249 body characters needs a length byte of 256: refused. -/
theorem test_wf_frame_too_long (body : List Byte) :
    (body.length = 249 → (Instr.submit 0 ⟨1, 0, body⟩).wellFormed = false) ∧
    (body.length = 248 → (Instr.submit 0 ⟨1, 0, body⟩).wellFormed = true) := by
  constructor <;> intro h <;> simp [Instr.wellFormed, Instr.frameFits, Instr.parameters, bytes3, h]

/-- Selector 3 is MULTIPLIERS and has a constructor of its own: refused as `other`. -/
theorem test_wf_selector_named :
    (Instr.setTariff 0 (.other 3 [0, 0])).wellFormed = false ∧
    (Instr.setTariff 0 (.other 4 [0, 0])).wellFormed = true := by decide

/-- A selector that names none passes the length check only with 3 parameter bytes or more. -/
theorem test_wf_selector_short : (Instr.setTariff 0 (.other 4 [0])).wellFormed = false := by decide

/-! ## Frames, codes and layouts (chapter 9) -/

/-- The SUBMIT frame of 9.5, `10 44 21 54 B4 82 00 09 43 41 4C 4C 20 34 34 31 31`. -/
theorem test_submit_frame :
    (Instr.submit 0x21 ⟨0x54B482, 0, [0x43, 0x41, 0x4C, 0x4C, 0x20, 0x34, 0x34, 0x31, 0x31]⟩).commandFrame =
      [0x10, 0x44, 0x21, 0x54, 0xB4, 0x82, 0x00, 0x09, 0x43, 0x41, 0x4C, 0x4C, 0x20, 0x34, 0x34, 0x31, 0x31] ∧
    parseCommand 0x44 0x21 [0x54, 0xB4, 0x82, 0x00, 0x09, 0x43, 0x41, 0x4C, 0x4C, 0x20, 0x34, 0x34, 0x31, 0x31] =
      .command (.submit 0x21 ⟨0x54B482, 0, [0x43, 0x41, 0x4C, 0x4C, 0x20, 0x34, 0x34, 0x31, 0x31]⟩) := by decide

/-- An ALTER with mask 0x90 carries new home zones and a plan change, in that order (R188). -/
theorem test_alter_mask : parseCommand 0x12 0 [0x54, 0xB4, 0x82, 0x90, 0x00, 0x20, 0x01, 0x00, 0x13, 0x88] =
    .command (.alter 0 { number := 5551234, newZones := some 0x0020, newPlan := some (1, 5000) }) := by decide

/-- A code of no command, and a SUBMIT whose body length byte does not fit. -/
theorem test_parse_refusals : parseCommand 0x7F 0 [] = .unknownCommand ∧
    parseCommand 0x44 0 [0, 0, 1, 0, 2, 0x41] = .lengthError := by decide

/-- The response of 9.5, `00 0A 44 21 00 18 25 00 4D 03 2C 01`. -/
theorem test_response_bytes :
    (Response.mk 0x44 0x21 .ok (nat2 6181 ++ nat2 77 ++ nat2 812 ++ nat1 1)).bytes =
      [0x00, 0x0A, 0x44, 0x21, 0x00, 0x18, 0x25, 0x00, 0x4D, 0x03, 0x2C, 0x01] := by decide

/-- The notices of 9.7. -/
theorem test_notice_bytes :
    (Notice.mk (.recordFreed 1 2000002) 4000).bytes =
      [0x01, 0x00, 0x00, 0x0F, 0xA0, 0x00, 0x01, 0x1E, 0x84, 0x82] ∧
    (NoticeKind.periodClosed 18 8192).bytes = (0x0B, [0x00, 0x12, 0x00, 0x20, 0x00]) := by decide

/-- The two status bytes of R190. -/
theorem test_status_byte : State.reset.statusByte = 0x10 ∧
    State.statusByte { State.reset with clu := { State.reset.clu with
      resetSeen := false, responses := [⟨0x80, 0, .ok, []⟩], notices := [⟨.zoneOutage, 0⟩],
      queue := List.replicate 2 ⟨0x80, 0, [], false⟩, inProgress := [⟨0, 0x22, 0⟩] } } = 0xC5 := by decide

/-- The hash cases of 1.3. -/
theorem test_buckets : base.stu.numberBucket 5551234 = 1154 ∧ base.stu.addressBucket 412345 = 2781 ∧
    ({ base.stu with capacity := 65536 } : Stu).addressBucket 412345 = 19125 := by decide

/-- The transmitter frame of 9.2, 70 bits. -/
theorem test_transmitter_frame :
    (TxFrame.mk 0x0020 412345 7 .alpha true 1 [0x4F, 0x4B]).bits =
      ([0,0,0,0, 0,0,0,0, 0,0,1,0, 0,0,0,0,  0,1,1,0, 0,1,0,0, 1,0,1,0, 1,0,1,1, 1,0,0,1,  0,0,0, 0,1,1,1,  1,0,
        1,  0,0,1,  0,0,0, 0,0,1,0,  1,0,0, 1,1,1,1,  1,0,0, 1,0,1,1] : List Nat).map (· == 1) := by decide

/-- The reports of 9.3: an ACK, and one whose address is out of range. -/
theorem test_reports : reportOf [0xA5, 0x01, 0x06, 0x4A, 0xB9, 0x07, 0x05] = some (.ack 412345 7 5) ∧
    reportOf [0xA5, 0x02, 0x06, 0x4A, 0xB9, 0xFF, 0x09] = some (.register 412345 9) ∧
    reportOf [0xA5, 0x03, 0x10, 0x00, 0x00, 0x00, 0x00] = none := by decide

/-- Replies 6,181 and 37 of 9.1. -/
theorem test_reply_digits : acceptedReply 6181 = [0x06, 0x30, 0x36, 0x31, 0x38, 0x31, 0x04] ∧
    acceptedReply 37 = [0x06, 0x30, 0x30, 0x30, 0x33, 0x37, 0x04] := by decide

/-- A non-FREE snapshot with empty lists is 39 bytes, one with a live slot 42, and an extract entry 28 (R191, R192). -/
theorem test_layout_lengths : ((holding pager).snapshot 0).length = 39 ∧ ((one page).snapshot 0).length = 42 ∧
    entry.bytes.length = 28 := by decide

/-- The character 0x15 of a reply on a POLLED line with even parity: start, data from bit 0, the mark bit clear, parity,
stop (R77, R79, R185). -/
theorem test_reply_bits :
    ({ Line.reset with mode := .polled, parity := .even, reply := [0x15] } : Line).replyBits =
      [false, true, false, true, false, true, false, false, false, false, true, true] := by decide

/-- Zero bytes follow the empty response frame while the host goes on clocking (R171). -/
theorem test_zero_bytes : (Exchange.mk 0x10 none false).shifted 2 = [0x10, 0x00] ∧
    (Exchange.mk 0x10 none false).shifted 5 = [0x10, 0x00, 0x00, 0x00, 0x00] := by decide

/-! ## Tariff and credit (chapter 3) -/

/-- The 47-character page of 3.2: 77, 38 and 51; within allowance 17 and 8. -/
theorem test_prices : base.chu.price .alpha 47 .urgent false = 77 ∧ base.chu.price .alpha 47 .deferred false = 38 ∧
    base.chu.price .alpha 47 .normal false = 51 ∧ base.chu.price .alpha 47 .urgent true = 17 ∧
    base.chu.price .alpha 47 .deferred true = 8 := by decide

/-- The charge at its limit (3.2). -/
theorem test_price_cap : ({ base.chu with numeric := ⟨60000, 0, 4095⟩ } : Chu).price .numeric 24 .normal false = 65535 ∧
    TariffRow.characterPart ⟨60000, 0, 4095⟩ 24 = 6143 := by decide

/-- The credit cases of 3.3. -/
theorem test_credit :
    ({ pager with plan := .prepaid 500, pending := 430 } : Record).creditPasses 77 = false ∧
    ({ pager with plan := .prepaid 500, pending := 430 } : Record).creditPasses 38 = true ∧
    ({ pager with plan := .account 5000, charge := 4900, pending := 60 } : Record).creditPasses 51 = false ∧
    ({ pager with plan := .account 5000, charge := 4900, pending := 60 } : Record).creditPasses 38 = true := by decide

/-! ## One step -/

/-- The frame of 4.5 for "CALL 4411" has the running sum 17 after its terminator, and makes its submission. -/
theorem test_frame_sum :
    ((([0x50, 0x35, 0x35, 0x35, 0x31, 0x32, 0x33, 0x34, 0x4E, 0x43, 0x41, 0x4C, 0x4C, 0x20, 0x34, 0x34, 0x31, 0x31, 0x04] :
      List Nat).sum) % 128 = 17) ∧
    (Frame.mk [0x50, 0x35, 0x35, 0x35, 0x31, 0x32, 0x33, 0x34, 0x4E, 0x43, 0x41, 0x4C, 0x4C, 0x20, 0x34, 0x34, 0x31, 0x31]
      20 17 false true).submission =
      some ⟨5551234, .normal, [0x43, 0x41, 0x4C, 0x4C, 0x20, 0x34, 0x34, 0x31, 0x31]⟩ := by decide

/-- The check character 0x11 of that frame makes the line ask for acceptance. -/
theorem test_check_character :
    ((after (.characterTaken 0) (lineIs { Line.reset with
      state := .assembling, fifo := [⟨0x11, false, false⟩]
      frame := some ⟨[0x50, 0x35, 0x35, 0x35, 0x31, 0x32, 0x33, 0x34, 0x4E, 0x4F, 0x4B], 13, 0x11, false, true⟩ }
      base)).line 0).state = .awaitingAcceptance := by decide

/-- A CANCEL of reference 6,181 settles slot 37 and gives back the charge. -/
theorem test_cancel : (after (.cancel 0 6181) (queued (one page))).message? 37 = none ∧
    ((after (.cancel 0 6181) (queued (one page))).record? 0).map (·.pending) = some 0 := by decide

/-- The take of "OK" with every zone live and presence UNKNOWN goes to the home zones at attempt 1. -/
theorem test_take : (after .arbiterTake (live (queued (one page)))).dsu.staging =
    some ⟨37, ⟨0x000C, 412345, 7, .alpha, true, 1, [0x4F, 0x4B]⟩⟩ := by decide

/-- PERIOD STATUS ends with the number of waiters in 3 bytes and the kind of the first, 11 for the flush walk (R168,
R189). -/
theorem test_waiter_count : (after (.periodStatus 0) (waiting [.walk, .expiry] base)).clu.responses.map
    (fun r => r.params.drop 26) = [[0, 0, 2, 11]] := by decide

/-- The arbiter takes nothing while a completion waits for extract space (R125). -/
theorem test_completion_bars_take : (waiting [.completion] (live (queued (one page)))).takeAllowed = false := by decide

/-- Its ACK from zone 5, after it has aired, settles it DELIVERED. -/
theorem test_ack : ((after (.reportTaken .a) (linkIs { Receiver.reset with fifo := [.ack 412345 7 5] }
      (timedAt [37] (one { page with place := .awaiting 100, aired := true, attempts := 1 })))).record? 0).map
    (fun r => (r.presence, r.delivered, r.charge, r.live)) = some (.here 5, 1, 51, []) := by decide

/-- The first acknowledgement wait is W0 = 150 ticks, the second 300 (R144). -/
theorem test_ack_wait : ((after .frameCompletion (onAir (one { page with place := .sending }))).message? 37).map
      (·.place) = some (.awaiting 150) ∧
    ((after .frameCompletion (onAir (one { page with place := .sending, attempts := 1 }))).message? 37).map
      (·.place) = some (.awaiting 300) := by decide

/-- The 600th tick of a minute raises the minute counter (R154). -/
theorem test_minute : (after .tick { base with pdu := { base.pdu with tickMinute := 599 } }).pdu.minute = 1 := by decide

/-- The example of R117: home zones 2 and 3, presence HERE in zone 5, service mask 0 to 7. -/
theorem test_zone_example :
    (fixedZones .twoWay 1 (.here 5) 0x0C 0xFF 0xE7 = 0x20 ∧ fixedZones .twoWay 2 (.here 5) 0x0C 0xFF 0xE7 = 0x24 ∧
      fixedZones .twoWay 3 (.here 5) 0x0C 0xFF 0xE7 = 0xE7) ∧
    fixedZones .twoWay 1 (.here 5) 0x0C 0xFF 0xC7 = 0x04 ∧ fixedZones .twoWay 1 (.here 5) 0x0C 0xFF 0xC3 = 0xC3 := by
  decide

/-- The rotation of the example of R110. -/
theorem test_rotation :
    ({ State.reset.dsu with mode := .rotating } : Dsu).rotate .retry = [.normal, .deferred, .retry] := by decide

/-! ## Witnesses: the queue and what every step keeps -/

theorem witness_StepRunsFrontCommand :
    ({ base with pending := [.tick, .status 0] } : State).pending = .tick :: [.status 0] ∧ base.pending = [] := by
  decide

/-- A sound state with a page held back by zones alone, a CANCEL of it waiting to be taken. -/
def running : State :=
  { queued (one page) with pending := [.cancel 0 6181], dsu := { (queued (one page)).dsu with outage := true } }

/-- Line 3 with an acceptance request that waits at the head of the list. -/
def turning : State :=
  (waiting [.line 3] base).putLine 3 { Line.reset with
    state := .awaitingAcceptance, request := some ⟨5551234, .normal, [0x4F]⟩ }

theorem witness_StepKeepsCanonicalForm : running.canonical = true ∧ ∃ t, step running = .next t := ⟨by decide, _, rfl⟩
theorem witness_StepKeepsCapacities :
    running.bounded = true ∧ running.chainsBounded = true ∧ running.waitersOnce = true ∧ ∃ t, step running = .next t :=
  ⟨by decide, by decide, by decide, _, rfl⟩
theorem witness_StepKeepsPins :
    (running.pinsDriven = true ∧ running.linesGood = true ∧ running.waitersOnce = true ∧ running.pinsShared = true ∧
      ∃ t, step running = .next t) ∧
    ((turning.linesGood = true ∧ turning.waitersOnce = true ∧ turning.pinsShared = true) ∧
      ((after .extractWaiterTurn turning).line 3).state = .replying) :=
  ⟨⟨by decide, by decide, by decide, by decide, _, rfl⟩, by decide⟩
theorem witness_StepKeepsSettings : running.settingsInRange = true ∧ ∃ t, step running = .next t := ⟨by decide, _, rfl⟩
theorem witness_StepKeepsRecords : running.recordsInRange = true ∧ ∃ t, step running = .next t := ⟨by decide, _, rfl⟩
theorem witness_StepLeavesNothingUndone : running.settled = true ∧ ∃ t, step running = .next t := ⟨by decide, _, rfl⟩
theorem witness_TimeAndResetIndication : ∃ t, exec (.status 0) base = .next t ∧ t.clu.resetSeen = true ∧
    Instr.status 0 ≠ .tick ∧ Instr.status 0 ≠ .minuteAdvance ∧ Instr.status 0 ≠ .hardwareReset :=
  ⟨_, rfl, rfl, by decide, by decide, by decide⟩

/-! ## Witnesses: the command link -/

/-- Bytes go most significant bit first, both ways, and MISO is undriven with no exchange in progress (R171). -/
theorem test_bit_order : base.misoBits 1 = none ∧
    (State.misoBits { base with clu := { base.clu with exchange := some ⟨0x15, none, false⟩ } } 1 =
      some [false, false, false, true, false, true, false, true]) ∧
    mosiBytes [false, true, false, false, false, true, false, false, true] = [0x44] := by decide

/-- An exchange with the response given. -/
def exchanging (r : Option Response) (s : State) : State :=
  { s with clu := { s.clu with exchange := some ⟨0x10, r, false⟩ } }

/-- The command queue with `n` frames of STATUS. -/
def queueOf (n : Nat) (s : State) : State :=
  { s with clu := { s.clu with queue := List.replicate n ⟨0x80, 0x21, [], false⟩ } }

theorem witness_CommandFrameRoundTrip :
    (Instr.submit 0x21 ⟨9999999, 2, []⟩).wellFormed = true ∧
    (Instr.submit 0x21 ⟨9999999, 2, []⟩).commandCode = some 0x44 := by decide

theorem witness_ExchangeRunsHostCommand :
    (Instr.status 0).wellFormed = true ∧ (Instr.status 0).commandCode.isSome = true ∧
    (exchanging none base).clu.exchange = some ⟨0x10, none, false⟩ ∧ (exchanging none base).clu.queue = [] ∧
    (exchanging none base).responseFull = false := by decide

theorem witness_StatusByteLayout : (queueOf 4 base).clu.queue.length ≤ 4 ∧
    ∃ s : State, s.clu.queue.length ≤ 4 ∧ s.clu.responses ≠ [] ∧ s.clu.notices ≠ [] ∧ s.clu.dropped = false ∧
      s.clu.resetSeen = false ∧ s.clu.queue.length = 2 ∧ s.clu.inProgress ≠ [] :=
  ⟨by decide, { base with clu := { base.clu with
    resetSeen := false, responses := [⟨0x80, 0, .ok, []⟩], notices := [⟨.zoneOutage, 0⟩],
    queue := List.replicate 2 ⟨0x80, 0, [], false⟩, inProgress := [⟨0, 0x22, 0⟩] } }, by decide⟩

theorem witness_ExchangeBeginAndReadOut : base.clu.exchange = none ∧
    (∃ x : Exchange, (exchanging none base).clu.exchange = some x ∧ x.readOut = false ∧ x.response = none) ∧
    (∃ (s : State) (x : Exchange), s.clu.exchange = some x ∧ x.readOut = true) ∧
    (∃ (x : Exchange) (r : Response), x.response = some r) ∧ 3 ≤ (Exchange.mk 0x10 none false).miso.length ∧
    ((Exchange.mk 0x10 none false).shifted 4)[3]? = some 0 ∧ (List.replicate 7 true).length < 8 :=
  ⟨rfl, ⟨_, rfl, rfl, rfl⟩, ⟨{ base with clu := { base.clu with exchange := some ⟨0x10, none, true⟩ } }, _, rfl, rfl⟩,
    ⟨⟨0x10, some ⟨0x80, 0, .ok, []⟩, false⟩, _, rfl⟩, by decide, by decide, by decide⟩

/-- A response of no parameters. -/
def okResponse : Response := ⟨0x80, 0, .ok, []⟩

/-- A response of no parameters is 6 bytes with the status byte: clocked whole at 6 bytes, cut short at 5. And frames
offered to queues of 3 and 4; a length of 0; a removal that starts a queued command, so that the frame finds 3 queued;
and a STATUS that comes while the response goes. -/
theorem witness_ExchangeEndOutcomes :
    (∃ (x : Exchange) (r : Response), (exchanging (some okResponse) base).clu.exchange = some x ∧
      x.response = some r ∧ ([0, 0, 0, 0, 0, 0] : List Byte).head? = some 0 ∧
      6 + r.params.length ≤ ([0, 0, 0, 0, 0, 0] : List Byte).length ∧
      ([0, 0, 0, 0, 0] : List Byte).length < 6 + r.params.length) ∧
    (∀ n, n = 3 ∨ n = 4 → (exchanging none (full (queueOf n base))).clu.exchange = some ⟨0x10, none, false⟩ ∧
      2 ≤ (2 : Byte).toNat ∧ (exchanging none (full (queueOf n base))).responseFull = true) ∧
    (exchanging none (full (queueOf 3 base))).clu.queue.length < 4 ∧
    4 ≤ (exchanging none (full (queueOf 4 base))).clu.queue.length ∧
    (([] : List Byte) = [] ∧ (∃ rest, ([1, 0x80] : List Byte) = 1 :: rest) ∧
      (([2, 0x80] : List Byte).length ≤ 2 ∧ ∃ length rest, ([2, 0x80] : List Byte) = length :: rest ∧ length ≠ 0)) ∧
    (exchanging none base).clu.exchange = some ⟨0x10, none, false⟩ ∧
    (∃ s removed : State, s.clu.exchange = some ⟨0x10, some okResponse, false⟩ ∧ s.clu.queue.length = 4 ∧
      2 ≤ (2 : Byte).toNat ∧ 6 + okResponse.params.length ≤ ([2, 0x80, 0x21, 0, 0, 0] : List Byte).length ∧
      removed = State.startWaiting { s with clu := { s.clu with
        exchange := none, responses := s.clu.responses.tail,
        attn := !s.clu.responses.tail.isEmpty || !s.clu.notices.isEmpty } } ∧ removed.clu.queue.length < 4) ∧
    (∃ (s : State) (more : List Byte), s.clu.exchange = some ⟨0x10, some okResponse, false⟩ ∧ s.clu.queue = [] ∧
      s.clu.responses ≠ [] ∧ s.clu.responses.length + s.clu.inProgress.length ≤ 8 ∧
      (Instr.status 0x21).wellFormed = true ∧ (Instr.status 0x21).commandCode.isSome = true ∧
      6 + okResponse.params.length ≤ ((Instr.status 0x21).commandFrame ++ more).length) := by
  refine ⟨⟨_, _, rfl, rfl, rfl, by decide, by decide⟩, ?_, by decide, by decide,
    ⟨rfl, ⟨_, rfl⟩, by decide, _, _, rfl, by decide⟩, rfl,
    ⟨exchanging (some okResponse) (full (queueOf 4 base)), _, rfl, rfl, by decide, by decide, rfl, by decide⟩,
    ⟨exchanging (some okResponse) (full base), [0, 0, 0], rfl, rfl, by decide, by decide, by decide, by decide, by decide⟩⟩
  rintro n (rfl | rfl) <;> decide

theorem witness_CommandStartTakesHead :
    (queueOf 1 base).clu.queue = ⟨0x80, 0x21, [], false⟩ :: [] ∧ (queueOf 1 base).responseFull = false ∧
    parseCommand 0x7F 0x21 [] = .unknownCommand ∧ parseCommand 0x80 0x21 [0] = .lengthError ∧
    parseCommand 0x80 0x21 [] = .command (.status 0x21) ∧
    (CommandFrame.mk 0x80 0x21 [] true).short = true ∧ (CommandFrame.mk 0x80 0x21 [] false).short = false ∧
    (Instr.status 0x21).commandCode.isSome = true ∧ (full base).responseFull = true := by decide

theorem witness_ReadNoticesAndStatus : base.responseFull = false ∧
    ((0 : Byte) = 0 ∨ 8 < (0 : Byte).toNat) ∧ 8 < (9 : Byte).toNat ∧
    (1 ≤ (1 : Byte).toNat ∧ (1 : Byte).toNat ≤ 8) ∧ (1 ≤ (8 : Byte).toNat ∧ (8 : Byte).toNat ≤ 8) := by decide

/-! ## Witnesses: the subscriber table -/

/-- A table being formatted. -/
def formatting : State := { base with
  stu := { base.stu with state := .formatting, formatPlace := some 0 }
  clu := { base.clu with inProgress := [⟨0, 0x10, 0x21⟩] } }

theorem witness_FormatIsTakenAndCompletes :
    base.responseFull = false ∧ base.canonical = true ∧ 3 < (4 : Byte).toNat ∧ (3 : Byte).toNat ≤ 3 ∧
    (∃ n, ((one page).message? n).isSome = true) ∧ (sweeping base).pdu.sweep ≠ .idle ∧
    (waiting [.arbiter] base).pdu.waiters ≠ [] ∧
    ({ base.msu with flush := some ⟨0, 0, 0, 0⟩ } : Msu).flush.isSome = true ∧
    (∀ n, base.message? n = none) ∧ base.pdu.sweep = .idle ∧ base.msu.flush = none ∧ base.pdu.waiters = [] ∧
    base.stu.state ≠ .formatting ∧
    ((∀ n, formatting.message? n = none) ∧ formatting.pdu.sweep = .idle ∧ formatting.stu.state = .formatting ∧
      formatting.responseFull = false ∧ formatting.canonical = true) ∧
    (formatting.stu.formatPlace = some 0 ∧
      formatting.clu.inProgress.find? (fun g => g.place == 0) = some ⟨0, 0x10, 0x21⟩) :=
  ⟨by decide, by decide, by decide, by decide, ⟨37, by decide⟩, by decide, by decide, by decide, fun _ => rfl, by decide,
    by decide, by decide, by decide, ⟨fun _ => rfl, by decide⟩, by decide⟩

/-- The parameters of an ADD at the top of its ranges. -/
def addArgs : AddArgs := ⟨9999999, 1048575, 2, 1, 0x8000, 1, 65535, 16777215⟩

/-- A chain of 12 records in the number bucket of `addArgs`. -/
def crowded : State := { base with stu := { base.stu with
  numberIndex := [(base.stu.numberBucket 9999999, List.range 12)] } }

theorem witness_AddWritesRecord :
    (base.responseFull = false ∧ base.stu.state = .ready ∧ classOf addArgs.cls = some .alpha ∧
      kindOf addArgs.kind = some .twoWay ∧ planOf addArgs.plan addArgs.amount.toNat = some (.account 16777215) ∧
      numberInRange addArgs.number = true ∧ addressInRange addArgs.address = true ∧ addArgs.zones ≠ 0 ∧
      base.findNumber addArgs.number.toNat = none ∧ base.findAddress addArgs.address.toNat = none ∧
      (chainAt base.stu.numberIndex (base.stu.numberBucket addArgs.number.toNat)).length < 12 ∧
      (chainAt base.stu.addressIndex (base.stu.addressBucket addArgs.address.toNat)).length < 12 ∧
      base.stu.free.take = some (0, ⟨[], 1, 8192⟩)) ∧
    State.reset.stu.state ≠ .ready ∧ State.reset.responseFull = false ∧
    (numberInRange 0 = false ∧ numberInRange 10000000 = false ∧ addressInRange 0 = false ∧
      addressInRange 1048576 = false ∧ 2 < (3 : Byte).toNat ∧ 1 < (2 : Byte).toNat) ∧
    ((holding pager).findNumber 5551234).isSome = true ∧ ((holding pager).findAddress 412345).isSome = true ∧
    12 ≤ (chainAt crowded.stu.numberIndex (crowded.stu.numberBucket 9999999)).length ∧
    (crowded.findNumber 9999999 = none ∧ crowded.findAddress 1048575 = none) ∧
    ({ base.stu with free := .empty } : Stu).free.take = none := by decide

theorem witness_SuspendAndResume :
    State.reset.stu.state ≠ .ready ∧ base.findNumber 5551234 = none ∧ (holding pager).responseFull = false ∧
    (holding pager).stu.state = .ready ∧ (holding pager).findNumber (5551234 : BitVec 24).toNat = some 0 ∧
    (holding pager).record? 0 = some pager := by decide

theorem witness_FindAndReadRecord : (holding pager).responseFull = false ∧ State.reset.stu.state ≠ .ready ∧
    9999999 < (10000000 : BitVec 24).toNat ∧ 1048575 < (1048576 : BitVec 24).toNat ∧ (0 : BitVec 24).toNat = 0 ∧
    base.findNumber 9999999 = none ∧ base.findAddress 1048575 = none ∧
    (holding pager).findNumber 5551234 = some 0 ∧ (holding pager).findAddress 412345 = some 0 ∧
    (holding pager).record? 0 = some pager ∧ base.stu.capacity ≤ (8192 : BitVec 16).toNat ∧
    (8191 : BitVec 16).toNat < base.stu.capacity ∧ base.record? 8191 = none ∧
    (pager.live = [] ∧ pager.held = []) := by decide

/-- An ALTER that carries a new number, address and allowance. -/
def alterArgs : AlterArgs :=
  { number := 5551234, newNumber := some 9999999, newAddress := some 1048575, newAllowance := some 3 }

/-- An ALTER of the subscriber's number, address, class, kind and plan to others. -/
def moveArgs : AlterArgs :=
  { number := 5551234, newNumber := some 9999999, newAddress := some 1048575, newClass := some 0, newKind := some 0,
    newPlan := some (1, 0) }

/-- `pager` beside a second record with the number and the address that `alterArgs` asks for. -/
def neighbours : State := (((holding pager).linkNumber 9999999 1).linkAddress 1048575 1).putRecord 1
  { pager with number := 9999999, address := 1048575 }

/-- `pager` beside 12 other records in the number bucket of 9999999. -/
def surrounded : State := { holding pager with stu := { (holding pager).stu with
  numberIndex := putChain (holding pager).stu.numberIndex (base.stu.numberBucket 9999999) ((List.range 12).map (· + 1)) } }

/-- A bucket that an index of one chain does not list is empty. -/
theorem chainAt_of_single {k b : Nat} {chain : List Nat} (h : b ≠ k) : chainAt [(k, chain)] b = [] := by
  simp [chainAt, Sparse.look, Ne.symm h]

/-- A state and an ALTER for each result of R15, in its order, and then those of an ALTER that is made. -/
theorem witness_AlterMakesItsChanges :
    State.reset.stu.state ≠ .ready ∧ State.reset.responseFull = false ∧
    (numberInRange (AlterArgs.mk 0 none none none none none none none none).number = false ∧
      (some (10000000 : BitVec 24)).any (fun v => !numberInRange v) = true ∧
      (some (1048576 : BitVec 24)).any (fun v => !addressInRange v) = true ∧
      (some (3 : Byte)).any (fun c => decide (2 < c.toNat)) = true ∧
      (some (2 : Byte)).any (fun k => decide (1 < k.toNat)) = true ∧
      (some ((2 : Byte), (0 : BitVec 24))).any (fun p => decide (1 < p.1.toNat)) = true) ∧
    base.findNumber alterArgs.number.toNat = none ∧
    ((holding pager).responseFull = false ∧ (holding pager).stu.state = .ready ∧
      (holding pager).findNumber alterArgs.number.toNat = some 0 ∧ (holding pager).record? 0 = some pager) ∧
    ((holding { pager with plan := .prepaid 500 }).record? 0 = some { pager with plan := .prepaid 500 } ∧
      ({ pager with plan := .prepaid 500 } : Record).plan.code = 0) ∧
    ((one page).findNumber moveArgs.number.toNat = some 0 ∧ (one page).record? 0 = some { pager with live := [37] } ∧
      moveArgs.newAddress.any (fun v => decide (v.toNat ≠ pager.address)) = true ∧
      moveArgs.newClass.any (fun c => decide (classOf c ≠ some pager.cls)) = true ∧
      moveArgs.newKind.any (fun k => decide (kindOf k ≠ some pager.kind)) = true) ∧
    (moveArgs.newPlan.isSome = true ∧ pager.pending ≠ 0) ∧
    (neighbours.findNumber alterArgs.number.toNat = some 0 ∧ neighbours.record? 0 = some pager ∧
      alterArgs.newNumber.any (fun v => decide (v.toNat ≠ pager.number) && (neighbours.findNumber v.toNat).isSome) =
        true ∧
      alterArgs.newAddress.any (fun v => decide (v.toNat ≠ pager.address) && (neighbours.findAddress v.toNat).isSome) =
        true) ∧
    (surrounded.findNumber alterArgs.number.toNat = some 0 ∧ surrounded.findNumber 9999999 = none ∧
      alterArgs.newNumber.any (fun v => decide (v.toNat ≠ pager.number) && decide (12 ≤
        ((chainAt surrounded.stu.numberIndex (surrounded.stu.numberBucket v.toNat)).erase 0).length)) = true) ∧
    (numberInRange 5551234 = true ∧ numberInRange 9999999 = true ∧ addressInRange 1048575 = true ∧ pager.live = [] ∧
      pager.plan = .account 0 ∧ (holding pager).findNumber 9999999 = none ∧ (holding pager).findAddress 1048575 = none ∧
      ((chainAt (holding pager).stu.numberIndex ((holding pager).stu.numberBucket 9999999)).erase 0).length < 12 ∧
      ((chainAt (holding pager).stu.addressIndex ((holding pager).stu.addressBucket 1048575)).erase 0).length < 12) ∧
    (∀ b, b ≠ (holding pager).stu.numberBucket pager.number → 0 ∉ chainAt (holding pager).stu.numberIndex b) ∧
    (∀ b, b ≠ (holding pager).stu.addressBucket pager.address → 0 ∉ chainAt (holding pager).stu.addressIndex b) ∧
    (alterArgs.newAllowance ≠ none ∧ (sweeping (extractOf 64 (holding pager))).touch false 0 = none) ∧
    ((holding pager).touch false 0 = some (holding pager) ∧ (holding pager).findAddress pager.address = some 0) ∧
    (∃ s₁ r₁, (sweeping (holding pager)).touch false 0 = some s₁ ∧ s₁.record? 0 = some r₁ ∧ r₁.periodTag = 1) := by
  refine ⟨by decide, by decide, by decide, by decide, by decide, by decide, by decide, by decide, by decide, by decide,
    by decide, ?_, ?_, by decide, by decide, ⟨_, _, rfl, rfl, rfl⟩⟩
  · intro b h
    have one : (holding pager).stu.numberIndex = [((holding pager).stu.numberBucket pager.number, [0])] := by decide
    simp [one, chainAt_of_single h]
  · intro b h
    have one : (holding pager).stu.addressIndex = [((holding pager).stu.addressBucket pager.address, [0])] := by decide
    simp [one, chainAt_of_single h]

theorem witness_TouchSweep : base.record? 0 = none ∧ (holding pager).record? 0 = some pager ∧
    (holding pager).pdu.sweep = .idle ∧
    ((sweeping (extractOf 63 (holding pager))).pdu.sweep ≠ .idle ∧
      pager.periodTag ≠ (sweeping (extractOf 63 (holding pager))).pdu.period ∧
      (sweeping (extractOf 63 (holding pager))).pdu.waiters = [] ∧
      (sweeping (extractOf 63 (holding pager))).pdu.extract.length < 64) ∧
    (waiting [.walk] (sweeping (holding pager))).pdu.waiters ≠ [] ∧
    64 ≤ (sweeping (extractOf 64 (holding pager))).pdu.extract.length := by decide

theorem witness_RetireDrainsOrFrees :
    State.reset.stu.state ≠ .ready ∧ 1 < (2 : Byte).toNat ∧ base.findNumber 5551234 = none ∧
    ((one page).responseFull = false ∧ (one page).stu.state = .ready ∧
      (one page).findNumber (5551234 : BitVec 24).toNat = some 0 ∧
      (one page).record? 0 = some { pager with live := [37] }) ∧
    ((sweeping (extractOf 64 (one page))).retireReaches ((1 : Byte) == 1) { pager with live := [37] } = true ∧
      (sweeping (extractOf 64 (one page))).touch false 0 = none) ∧
    ((holding pager).touch false 0 = some (holding pager) ∧ (holding pager).pdu.waiters = [] ∧
      (extractOf 63 (holding pager)).pdu.extract.length < 64 ∧ (holding pager).clu.notices.length < 32) ∧
    ((extractOf 64 (holding pager)).touch false 0 = some (extractOf 64 (holding pager)) ∧
      64 ≤ (extractOf 64 (holding pager)).pdu.extract.length) ∧
    ((one page).retireReaches true { pager with live := [37] } = true ∧ (one page).touch false 0 = some (one page) ∧
      (one page).message? 37 = some page) ∧
    ((one { page with place := .sending }).retireReaches true { pager with live := [37] } = false ∧
      (one { page with place := .sending }).message? 37 = some { page with place := .sending }) ∧
    ([37] : List Nat).Nodup ∧
    (∀ m, m = page ∨ m = { page with place := .sending } → (one m).findNumber 5551234 = some 0 ∧
      ∀ n ∈ ([37] : List Nat), ∃ m', (one m).message? n = some m' ∧ m'.owner = 0) ∧
    (([37] : List Nat).filter (fun n => ((one page).message? n).any fun m => decide (m.place ≠ .sending)) = [37] ∧
      (one page).pdu.waiters = [] ∧ (one page).pdu.extract.length < 64) ∧
    ([37] : List Nat).filter (fun n => ((one { page with place := .sending }).message? n).any
      fun m => decide (m.place ≠ .sending)) = [] ∧
    ((extractOf 64 (one page)).touch false 0 = some (extractOf 64 (one page)) ∧
      64 ≤ (extractOf 64 (one page)).pdu.extract.length) := by
  refine ⟨by decide, by decide, by decide, by decide, by decide, by decide, by decide, by decide, by decide, by decide, ?_,
    by decide, by decide, by decide⟩
  rintro m (rfl | rfl) <;> exact ⟨by decide, fun n h => by simp at h; subst h; exact ⟨_, rfl, rfl⟩⟩

/-! ## Witnesses: the message store -/

theorem witness_ReadMessageSnapshot : State.reset.stu.state ≠ .ready ∧ (one page).responseFull = false ∧
    (one page).stu.state = .ready ∧ base.message? (6181 % 2048) = none ∧
    ((one page).slot ((37 : BitVec 16).toNat % 2048)).reuse ≠ (37 : BitVec 16).toNat / 2048 ∧
    (one page).message? ((6181 : BitVec 16).toNat % 2048) = some page ∧
    ((one page).slot ((6181 : BitVec 16).toNat % 2048)).reuse = (6181 : BitVec 16).toNat / 2048 := by decide

theorem witness_CancelActsByState :
    (37 = (6181 : BitVec 16).toNat % 2048 ∧ ((one page).slot 37).reuse = (6181 : BitVec 16).toNat / 2048) ∧
    ((one { page with place := .sending, ackPending := true }).message? 37 =
      some { page with place := .sending, ackPending := true }) ∧
    (one { page with place := .sending }).message? 37 = some { page with place := .sending } ∧
    (page.place ≠ .sending ∧ (sweeping (extractOf 64 (one page))).touch false page.owner = none) ∧
    ((one page).touch false page.owner = some (one page) ∧
      (one page).record? page.owner = some { pager with live := [37] } ∧ pager.state ≠ .retiring) ∧
    (∃ r, (carrying { pager with state := .retiring } [(37, page)]).record? 0 = some r ∧ r.state = .retiring ∧
      r.live.erase 37 = [] ∧ (carrying { pager with state := .retiring } [(37, page)]).pdu.waiters = []) ∧
    64 ≤ (extractOf 64 (carrying { pager with state := .retiring } [(37, page)])).pdu.extract.length ∧
    (one page).clu.notices.length < 32 :=
  ⟨by decide, by decide, by decide, by decide, by decide, ⟨_, rfl, by decide⟩, by decide, by decide⟩

/-- A flush walk with its cursor as given. -/
def walking (cursor : Nat) (s : State) : State := { s with msu := { s.msu with flush := some ⟨0, cursor, 0, 0⟩ } }

theorem witness_TrafficResetAndFlushWalk :
    (base.responseFull = false ∧ base.stu.state = .ready ∧ base.msu.flush = none) ∧
    (walking 0 base).msu.flush.isSome = true ∧
    ((base.line 1).state ≠ .assembling ∧ ((lineIs { Line.reset with state := .assembling } base).line 0).state =
      .assembling) ∧
    ((walking 2047 base).walkWaits = false ∧ (2047 < 2048) ∧ (walking 2047 base).message? 2047 = none) ∧
    (∃ m, (walking 37 (one { page with place := .sending })).message? 37 = some m ∧ m.place = .sending) ∧
    ((walking 37 (one page)).message? 37 = some page ∧ page.place ≠ .sending ∧
      (walking 37 (sweeping (extractOf 64 (one page)))).touch false 0 = none ∧
      (walking 37 (one page)).touch false 0 = some (walking 37 (one page)) ∧
      (walking 37 (one page)).record? 0 = some { pager with live := [37] }) ∧
    (∃ r, (walking 37 (carrying { pager with state := .retiring } [(37, page)])).record? 0 = some r ∧
      r.state = .retiring ∧ r.live.erase 37 = []) ∧
    (∃ f, (walking 2048 base).msu.flush = some f ∧ 2048 ≤ f.cursor) ∧
    (waiting [.walk] (walking 0 base)).walkWaits = true :=
  ⟨by decide, by decide, by decide, by decide, ⟨_, rfl, rfl⟩, by decide, ⟨_, rfl, by decide⟩, ⟨_, rfl, by decide⟩, by decide⟩

theorem witness_TagChoice : (List.range 16).length ≤ 16 ∧ 127 < 128 := by decide

/-! ## Witnesses: tariffs, charges and credit -/

theorem witness_TariffCommands : base.responseFull = false ∧
    (TariffRow.mk (65535 : BitVec 16).toNat (min (81 : Byte).toNat 80) (min (4096 : BitVec 16).toNat 4095) =
      ⟨65535, 80, 4095⟩) := by decide

theorem witness_PricingAndCredit :
    (({ pager with plan := .prepaid 500, pending := 500 } : Record).plan = .prepaid 500 ∧ 500 ≤ 500) ∧
    (({ pager with plan := .account 0 } : Record).plan = .account 0) := by decide

theorem witness_SettlementTable :
    (({ pager with plan := .prepaid 51 } : Record).plan = .prepaid 51 ∧ pager.plan = .account 0) ∧
    (({ page with aired := true } : Message).aired = true ∧ page.aired = false ∧
      Ending.cancelled = Ending.cancelled) ∧
    (({ pager with charge := 16777164 } : Record).charge + page.charge ≤ 16777215) ∧
    (16777215 < ({ pager with charge := 16777165 } : Record).charge + page.charge) := by decide

/-- A PREPAID record of 500 units with 51 of them reserved. -/
def prepaid : Record := { pager with plan := .prepaid 500 }

theorem witness_AdjustBalanceClamps : (holding prepaid).responseFull = false ∧ State.reset.stu.state ≠ .ready ∧
    ((holding prepaid).stu.state = .ready ∧ (10000000 : BitVec 24).toNat > 9999999 ∧
      (BitVec.ofInt 32 (-16777216)).toInt < -16777215 ∧ 16777215 < (16777216 : BitVec 32).toInt) ∧
    (-16777215 ≤ (BitVec.ofInt 32 (-16777215)).toInt ∧ (16777215 : BitVec 32).toInt ≤ 16777215) ∧
    base.findNumber 5551234 = none ∧
    ((holding prepaid).findNumber 5551234 = some 0 ∧ (holding prepaid).record? 0 = some prepaid ∧
      (holding pager).record? 0 = some pager ∧ pager.plan = .account 0 ∧ prepaid.plan = .prepaid 500) ∧
    (sweeping (extractOf 64 (holding prepaid))).touch false 0 = none ∧
    ((holding prepaid).touch false 0 = some (holding prepaid) ∧ prepaid.pending ≤ 16777215) ∧
    ((51 : Int) = (if ((500 : Nat) : Int) + (-16777215) < ((51 : Nat) : Int) then ((51 : Nat) : Int)
      else if 16777215 < ((500 : Nat) : Int) + (-16777215) then 16777215 else ((500 : Nat) : Int) + (-16777215))) := by
  decide

/-! ## Witnesses: the intake lines -/

/-- The settings of a POLLED line of two stations. -/
def polledArgs : LineArgs := ⟨0, 1, 4095, 1, 1, 2, 25, [1, 31]⟩

/-- The settings of a DIRECT line. -/
def directArgs : LineArgs := ⟨3, 0, 0, 0, 0, 1, 2, []⟩

theorem witness_SetLineSettings : base.responseFull = false ∧
    (4 ≤ (4 : Byte).toNat ∧ 1 < (2 : Byte).toNat ∧ 4095 < (4096 : BitVec 16).toNat ∧ (1 : Byte).toNat < 2 ∧
      25 < (26 : Byte).toNat ∧ ¬ ([7, 7] : List Byte).Nodup ∧ (∃ x ∈ ([32] : List Byte), x = 0 ∨ 31 < x.toNat)) ∧
    (directArgs.line.toNat = (3 : Fin 4).val ∧ parityOf directArgs.parity = some .none ∧ directArgs.n.toNat ≤ 4095 ∧
      directArgs.e.toNat ≤ 1 ∧ directArgs.stop = 1 ∧ 2 ≤ directArgs.wait.toNat ∧ directArgs.wait.toNat ≤ 25 ∧
      directArgs.mode = 0 ∧ (base.line 3).state = .disabled) ∧
    (polledArgs.line.toNat = (0 : Fin 4).val ∧ parityOf polledArgs.parity = some .even ∧ polledArgs.n.toNat ≤ 4095 ∧
      polledArgs.e.toNat ≤ 1 ∧ polledArgs.stop = 2 ∧ 2 ≤ polledArgs.wait.toNat ∧ polledArgs.wait.toNat ≤ 25 ∧
      polledArgs.mode = 1 ∧ polledArgs.stations ≠ [] ∧ polledArgs.stations.length ≤ 8 ∧
      (∀ x ∈ polledArgs.stations, 1 ≤ x.toNat ∧ x.toNat ≤ 31) ∧ polledArgs.stations.Nodup ∧
      (base.line 0).state = .disabled ∧ ((lineIs { Line.reset with state := .idle } base).line 0).state ≠ .disabled) := by
  decide

theorem witness_LineEnableDisableStatus : base.responseFull = false ∧ 4 ≤ (4 : Byte).toNat ∧
    ((3 : Byte).toNat = (3 : Fin 4).val ∧ (base.line 3).state = .disabled ∧ base.rlb.state = .disabled) ∧
    ({ base.rlb with state := .hunting } : Receiver).state ≠ .disabled ∧
    ((0 : Byte).toNat = (0 : Fin 4).val ∧ ((lineIs { Line.reset with state := .idle } base).line 0).state = .idle ∧
      ((lineIs { Line.reset with state := .down } base).line 0).state = .down ∧
      ((lineIs { Line.reset with state := .assembling } base).line 0).state = .assembling) := by decide

/-- A line that has taken two breaks in a row. -/
def breaking : State := lineIs { Line.reset with state := .idle, breakRun := 2 } base

/-- A line whose FIFO is full. -/
def overrun : State := lineIs { Line.reset with state := .idle, fifo := List.replicate 16 ⟨0x41, false, false⟩ } base

theorem witness_CharacterReception : 1 ≤ (base.line 0).stop ∧ (base.line 0).state = .disabled ∧
    ((lineIs { Line.reset with state := .down } base).line 0).state = .down ∧
    ((!false) = true ∧ (!true || parityError .none 0x41 none false || (decide (LineMode.direct = .polled) && false)) =
      false) ∧
    ((breaking.line 0).state ≠ .disabled ∧ (breaking.line 0).state ≠ .down ∧ (breaking.line 0).breakRun + 1 = 3 ∧
      3 ≤ (if false = false ∧ (0 : Byte) = 0 then (breaking.line 0).breakRun + 1 else 0) ∧
      (if true = false ∧ (0 : Byte) = 0 then (breaking.line 0).breakRun + 1 else 0) < 3 ∧
      (breaking.line 0).fifo.length < 16 ∧ (breaking.line 0).disablePending = false) ∧
    ((overrun.line 0).fifo = List.replicate 15 ⟨0x41, false, false⟩ ++ [⟨0x41, false, false⟩] ∧
      16 ≤ (overrun.line 0).fifo.length) ∧
    ((lineIs { Line.reset with state := .replying, disablePending := true, breakRun := 2 } base).line 0).disablePending =
      true := by decide

/-- A line with one character at the head of its FIFO. -/
def taking (l : Line) (c : RxChar) : State := lineIs { l with fifo := [c] } base

/-- A line assembling a frame of `count` characters. -/
def assembling (count : Nat) (terminated : Bool) : Line := { Line.reset with
  state := .assembling, interTimer := some 0
  frame := some ⟨[0x50, 0x35, 0x35, 0x35, 0x31, 0x32, 0x33, 0x34, 0x4E], count, 0x0F, false, terminated⟩ }

theorem witness_FrameAssembly :
    (((taking { Line.reset with state := .down } ⟨0x41, false, false⟩).line 0).fifo = [⟨0x41, false, false⟩] ∧
      ((taking { Line.reset with state := .down } ⟨0x41, false, false⟩).line 0).state ≠ .idle ∧
      ((taking { Line.reset with state := .down } ⟨0x41, false, false⟩).line 0).state ≠ .assembling) ∧
    (((taking { Line.reset with state := .idle } ⟨0x01, false, true⟩).line 0).fifo = [⟨0x01, false, true⟩] ∧
      ((taking { Line.reset with state := .idle } ⟨0x05, false, false⟩).line 0).fifo = [⟨0x05, false, false⟩] ∧
      ((taking { Line.reset with state := .idle } ⟨0x01, true, false⟩).line 0).fifo = [⟨0x01, true, false⟩] ∧
      ((taking { Line.reset with state := .idle } ⟨0x01, true, false⟩).line 0).state = .idle) ∧
    ((∀ k, k = 95 ∨ k = 96 → ∃ f, ((taking (assembling k false) ⟨0x41, false, false⟩).line 0).frame = some f ∧
        f.terminated = false ∧ f.count = k) ∧
      ((taking (assembling 96 false) ⟨0x04, false, false⟩).line 0).fifo = [⟨0x04, false, false⟩] ∧
      ((taking (assembling 96 false) ⟨0x01, false, false⟩).line 0).fifo = [⟨0x01, false, false⟩]) ∧
    (∃ f sub, ((taking (assembling 11 true) ⟨0x0F, false, false⟩).line 0).frame = some f ∧ f.terminated = true ∧
      f.submission = some sub ∧ f.spoiled = false ∧ (0x0F : Byte).toNat = f.sum ∧ (0x0E : Byte).toNat ≠ f.sum) ∧
    (([0x30, 0x30, 0x30, 0x30, 0x30, 0x30, 0x39] : List Byte).length = 7 ∧
      (∀ x ∈ ([0x30, 0x30, 0x30, 0x30, 0x30, 0x30, 0x39] : List Byte), 0x30 ≤ x.toNat ∧ x.toNat ≤ 0x39) ∧
      (List.replicate 80 (0x41 : Byte)).length ≤ 80) ∧
    ((Frame.mk [0x51] 2 0 false true).chars.head? ≠ some 0x50 ∧ (Frame.mk [0x50] 2 0 false true).chars.length < 9 ∧
      89 < (Frame.mk (List.replicate 90 0x50) 91 0 false true).chars.length ∧
      (∃ x ∈ (([0x50, 0x2F, 0x30, 0x30, 0x30, 0x30, 0x30, 0x30, 0x4E] : List Byte).drop 1).take 7,
        x.toNat < 0x30 ∨ 0x39 < x.toNat) ∧
      (∃ p, ([0x50, 0x30, 0x30, 0x30, 0x30, 0x30, 0x30, 0x31, 0x41] : List Byte)[8]? = some p ∧ p ≠ 0x55 ∧ p ≠ 0x4E ∧
        p ≠ 0x44)) := by
  refine ⟨by decide, by decide, ⟨?_, by decide, by decide⟩, ⟨_, _, rfl, rfl, rfl, rfl, by decide, by decide⟩, by decide,
    by decide, by decide, by decide, by decide, _, rfl, by decide⟩
  rintro k (rfl | rfl) <;> exact ⟨_, rfl, rfl, rfl⟩

/-- A POLLED line of stations 12 and 31, IDLE at the first. -/
def polling : Line := { Line.reset with
  state := .idle, mode := .polled, stations := [12, 31], polls := [12], stationTimer := some 5 }

theorem witness_LineTimersAndReplies :
    ((assembling 9 false).state = .assembling ∧ (assembling 9 false).interTimer = some 0 ∧ 0 < 50 ∧
      ({ assembling 9 false with interTimer := some 50 } : Line).interTimer = some 50 ∧ 50 ≤ 50) ∧
    (((lineIs (assembling 9 false) base).line 0).state = .assembling ∧ (base.line 0).state ≠ .assembling ∧
      ((lineIs { Line.reset with state := .replying } base).line 0).state = .replying ∧ (base.line 0).state ≠ .replying) ∧
    (((lineIs polling base).line 0).polls = [12] ∧ ((lineIs polling base).line 0).state = .idle ∧
      ((lineIs polling base).line 0).mode = .polled) ∧
    (((lineIs { polling with polls := [12, 31] } base).line 0).polls = 12 :: [31] ∧ ([31] : List Nat) ≠ []) ∧
    (((lineIs polling base).line 0).stationTimer = some 5 ∧ ((lineIs polling base).line 0).wait ≤ 5 ∧
      4 < ((lineIs polling base).line 0).wait) ∧
    (base.line 0).stationTimer = none := by decide

/-- The poll of station 12 with even parity (9.1). -/
theorem test_poll_parity : parityBit .even 0x0C (some true) = some true := by decide

/-! ## Witnesses: acceptance -/

/-- A submission of the 47-character page of 3.2 to `pager`. -/
def sub (p : Priority) : Submission := ⟨5551234, p, List.replicate 47 0x41⟩

/-- The free-slot count as given, low water as it makes it. -/
def freeSlots (n : Nat) (s : State) : State := { s with msu := { s.msu with freeCount := n, lowWater := n ≤ 64 } }

theorem witness_AcceptanceChecks :
    ((walking 0 base).msu.flush.isSome = true ∧ State.reset.stu.state ≠ .ready) ∧
    (base.msu.flush = none ∧ base.stu.state = .ready ∧ base.findNumber (sub .urgent).number = none) ∧
    ((holding pager).findNumber (sub .urgent).number = some 0 ∧ (holding pager).record? 0 = some pager ∧
      pager.state = .active ∧ ({ pager with state := .suspended } : Record).state ≠ .active) ∧
    (bodyValid pager.cls [0x1F] = false ∧ bodyValid pager.cls (sub .urgent).body = true) ∧
    (16 ≤ ({ pager with live := List.range 16 } : Record).live.length ∧ pager.live.length < 16) ∧
    ((freeSlots 0 base).msu.freeCount = 0 ∧ (freeSlots 64 base).msu.freeCount ≤ 64 ∧ (sub .normal).priority ≠ .urgent ∧
      0 < (freeSlots 1 base).msu.freeCount ∧ (sub .urgent).priority = .urgent ∧ 64 < (freeSlots 65 base).msu.freeCount) ∧
    (base.chu.priceFor pager (sub .urgent).body.length .urgent = 77 ∧
      ({ pager with plan := .account 128 } : Record).creditPasses 77 = true ∧
      ({ pager with plan := .account 127 } : Record).creditPasses 77 = false) := by decide

/-- `pager` AWAY. -/
def gone : Record := { pager with presence := .away }

/-- `gone` with four held slots. -/
def parked : State := putHeld (carrying gone ([(1, p), (2, p), (3, p), (4, p)]))
where
  /-- A held page. -/
  p : Message := { page with place := .held 600 }
  /-- The four slots in the record's held list, and other slots free. -/
  putHeld (s : State) : State :=
    { (s.updateRecord 0 fun r => { r with held := [1, 2, 3, 4] }) with
      aru := { s.aru with timed := [1, 2, 3, 4] }
      msu := { s.msu with free := ⟨[], 37, 2048⟩, freeCount := 2011 } }

theorem witness_AcceptanceEffect :
    (∃ why figures, base.judge (sub .normal) = .fail why figures) ∧
    ((sweeping (extractOf 64 (holding pager))).judge (sub .normal) = .pass 0 51 ∧
      (sweeping (extractOf 64 (holding pager))).touch false 0 = none) ∧
    ((holding pager).judge (sub .normal) = .pass 0 51 ∧ (holding pager).touch false 0 = some (holding pager) ∧
      (holding pager).record? 0 = some pager ∧ (holding pager).msu.free.take = some (0, ⟨[], 1, 2048⟩) ∧
      (∀ q, 0 ∉ (holding pager).dsu.queues.get q) ∧ 0 ∉ pager.held ∧
      (∀ k ∈ pager.held, ∀ m, (holding pager).message? k = some m → m.owner = 0) ∧
      (pager.kind == .twoWay && pager.presence == .away) = false) ∧
    ((holding gone).judge (sub .normal) = .pass 0 51 ∧ (holding gone).record? 0 = some gone ∧ gone.held.length < 4 ∧
      (gone.kind == .twoWay && gone.presence == .away) = true ∧ 0 ∉ (holding gone).aru.timed ∧
      (holding gone).clu.notices.length < 32) ∧
    (∃ r m, parked.judge (sub .normal) = .pass 0 51 ∧ parked.touch false 0 = some parked ∧ parked.record? 0 = some r ∧
      parked.msu.free.take = some (37, ⟨[], 38, 2048⟩) ∧ 37 ∉ r.held ∧ r.held = 1 :: [2, 3, 4] ∧
      ([2, 3, 4] : List Nat).length = 3 ∧ parked.message? 1 = some m ∧ m.owner = 0 ∧
      (r.kind == .twoWay && r.presence == .away) = true ∧ m.place = .held 600 ∧ parked.clu.notices.length < 31 ∧
      parked.aru.timed.Nodup ∧ 37 ∉ parked.aru.timed) := by
  refine ⟨⟨_, _, rfl⟩, by decide, ⟨by decide, by decide, by decide, by decide, ?_, by decide, ?_, by decide⟩, by decide,
    ⟨_, _, by decide, by decide, rfl, by decide, by decide, rfl, rfl, rfl, rfl, rfl, rfl, by decide, by decide, by decide⟩⟩
  · intro q; cases q <;> decide
  · intro k hk; cases hk

/-- Line 0 with an acceptance request. -/
def asking (s : State) : State := lineIs { Line.reset with state := .awaitingAcceptance, request := some (sub .normal) } s

theorem witness_AcceptanceReplies :
    ((base.line 0).state ≠ .awaitingAcceptance ∧ Waiter.line 0 ∈ (waiting [.line 0] base).pdu.waiters) ∧
    (∀ s, s = asking base ∨ s = asking (holding pager) ∨ s = sweeping (extractOf 64 (asking (holding pager))) →
      (s.line 0).state = .awaitingAcceptance ∧ Waiter.line 0 ∉ s.pdu.waiters ∧
      (s.line 0).request = some (sub .normal)) ∧
    (∃ t why figures, (asking base).accept false (.line 0) (.line 0) (sub .normal) = (t, .refused why figures)) ∧
    (∃ t, (sweeping (extractOf 64 (asking (holding pager)))).accept false (.line 0) (.line 0) (sub .normal) = (t, .waits)) ∧
    (∃ t slot i c held, (asking (holding pager)).accept false (.line 0) (.line 0) (sub .normal) =
      (t, .made slot i c held)) ∧
    (base.responseFull = false ∧ 9999999 < (10000000 : BitVec 24).toNat ∧ 2 < (3 : Byte).toNat ∧
      80 < (List.replicate 81 (0x41 : Byte)).length) ∧
    (1 ≤ (5551234 : BitVec 24).toNat ∧ (5551234 : BitVec 24).toNat ≤ 9999999 ∧ priorityOf 1 = some .normal ∧
      (List.replicate 47 (0x41 : Byte)).length ≤ 80 ∧ 65535 < 65536) ∧
    (∃ t why figures, base.accept false .arbiter .commandLink (sub .normal) = (t, .refused why figures)) ∧
    (∃ t, (sweeping (extractOf 64 (holding pager))).accept false .arbiter .commandLink (sub .normal) = (t, .waits)) ∧
    (∃ t slot i c held, (holding pager).accept false .arbiter .commandLink (sub .normal) = (t, .made slot i c held)) ∧
    (∃ ones : Byte → Nat, ∀ c, ones c = (List.range 8).countP fun i => c.getLsbD i) := by
  refine ⟨by decide, ?_, ⟨_, _, _, rfl⟩, ⟨_, rfl⟩, ⟨_, _, _, _, _, rfl⟩, by decide, by decide, ⟨_, _, _, rfl⟩, ⟨_, rfl⟩,
    ⟨_, _, _, _, _, rfl⟩, ⟨_, fun _ => rfl⟩⟩
  rintro s (rfl | rfl | rfl) <;> decide

/-! ## Witnesses: dispatch -/

theorem witness_ZoneCommands : base.responseFull = false ∧ 2 < (3 : Byte).toNat ∧ 15 < base.dsu.overrides.length ∧
    (∃ v, ((0 : Byte) = 0 ∧ v = Override.follow)) ∧ (∃ v, ((1 : Byte) = 1 ∧ v = Override.forceIn)) ∧
    (∃ v, ((2 : Byte) = 2 ∧ v = Override.forceOut)) :=
  ⟨by decide, by decide, by decide, ⟨_, rfl, rfl⟩, ⟨_, rfl, rfl⟩, _, rfl, rfl⟩

theorem witness_DispatchCommands : base.responseFull = false ∧ 1 < (2 : Byte).toNat := by decide

theorem witness_ArbiterOrder : base.dsu.mode = .fixed ∧
    (∀ q : Queues, q = ⟨[1], [], [], []⟩ ∨ q = ⟨[], [1], [], []⟩ ∨ q = ⟨[], [], [1], []⟩ ∨ q = ⟨[], [], [], [1]⟩ ∨
        q = ⟨[], [], [], []⟩ → ∃ d : Dsu, d.mode = .rotating ∧ d.rotation = [.retry, .normal, .deferred] ∧ d.queues = q) ∧
    (QueueName.retry ≠ .normal ∧ QueueName.retry ≠ .deferred ∧ QueueName.normal ≠ .deferred ∧
      QueueName.retry ≠ .urgent ∧ QueueName.normal ≠ .urgent ∧ QueueName.deferred ≠ .urgent) :=
  ⟨by decide, fun q _ => ⟨{ State.reset.dsu with mode := .rotating, queues := q }, rfl, rfl, rfl⟩, by decide⟩

theorem witness_ZoneSetChoice : (0x000C : ZoneSet) &&& 0x0004 ≠ 0 ∧ (0x000C : ZoneSet) &&& 0x0010 = 0 ∧
    (15 < 16 ∧ (0x8000 : ZoneSet).getLsbD 15 = true ∧ (0x7FFF : ZoneSet).getLsbD 15 = false) ∧
    ((∀ z, Presence.away ≠ .here z) ∧ (∀ z, Presence.unknown ≠ .here z)) ∧
    ((0x8000 : ZoneSet) &&& 0xFFFF = 0x8000 ∧ (0x8000 : ZoneSet) ≠ 0 ∧ (0 : ZoneSet) &&& 0xFFFF = 0) :=
  ⟨by decide, by decide, by decide, ⟨fun _ h => (by cases h), fun _ h => (by cases h)⟩, by decide⟩

/-- A held page, and the same page while it is QUEUED after a release. -/
def heldPage : Message := { page with place := .held 0 }
def releasedPage : Message := { page with released := true }

/-- Slot 37 as given, at the head of NORMAL with every zone live, its owner AWAY with the held slots 1 to `k`. -/
def awayTake (k : Nat) (m : Message) : State :=
  live (queued (carrying { gone with held := (List.range k).map (· + 1) }
    ((37, m) :: (List.range k).map fun i => (i + 1, heldPage))))

/-- The take of a released slot, the last live one of its RETIRING owner. -/
def releasedTake : State := live (queued (carrying { gone with state := .retiring } [(37, releasedPage)]))

/-- Slot 37 staged. -/
def staged (s : State) : State := { s with dsu := { s.dsu with
  staging := some ⟨37, ⟨0x000C, 412345, 7, .alpha, true, 1, [0x4F, 0x4B]⟩⟩ } }

/-- READY high. -/
def asked (s : State) : State := { s with pins := { s.pins with ready := true } }

theorem witness_ArbiterTakeAndMove :
    ((staged base).dsu.staging.isSome = true ∧ base.dsu.queues = ⟨[], [], [], []⟩ ∧ State.reset.liveZones = 0 ∧
      (walking 0 base).msu.flush.isSome = true ∧ Waiter.arbiter ∈ (waiting [.arbiter] base).pdu.waiters ∧
      Waiter.completion ∈ (waiting [.completion] (live (queued (one page)))).pdu.waiters) ∧
    (∀ s, s = live (queued (one page)) ∨ s = awayTake 3 page ∨ s = awayTake 4 page ∨ s = awayTake 0 releasedPage ∨
        s = sweeping (extractOf 64 (awayTake 0 releasedPage)) ∨ s = sweeping (extractOf 64 (awayTake 4 page)) →
      s.dsu.staging = none ∧ s.liveZones ≠ 0 ∧ s.msu.flush = none ∧ Waiter.arbiter ∉ s.pdu.waiters ∧
      Waiter.completion ∉ s.pdu.waiters ∧ s.dsu.serve = some .normal ∧ s.dsu.queues.get .normal = 37 :: [] ∧ (s.message? 37).map (·.owner) = some 0) ∧
    (pager.presence ≠ .away ∧ (live (queued (one page))).record? 0 = some { pager with live := [37] }) ∧
    (∀ s, s = sweeping (extractOf 64 (awayTake 0 releasedPage)) ∨ s = sweeping (extractOf 64 (awayTake 4 page)) →
      s.touch false 0 = none ∧ (s.record? 0).map (fun r => (r.kind, r.presence)) = some (.twoWay, .away)) ∧
    ((awayTake 3 page).message? 37 = some page ∧ page.released = false ∧ page.place = .queued ∧
      ((awayTake 3 page).record? 0).map (fun r => r.held.length) = some 3 ∧
      (((awayTake 3 page).dsu.queues.set .normal []).get .normal = []) ∧
      (awayTake 3 page).dsu.queues.get .urgent = [] ∧ (awayTake 3 page).dsu.queues.get .deferred = [] ∧
      (awayTake 3 page).dsu.queues.get .retry = []) ∧
    ((awayTake 4 page).touch false 0 = some (awayTake 4 page) ∧ (∃ r, (awayTake 4 page).record? 0 = some r ∧
      r.held = 1 :: [2, 3, 4] ∧ 3 ≤ ([2, 3, 4] : List Nat).length) ∧
      (awayTake 4 page).message? 1 = some heldPage ∧ heldPage.owner = 0) ∧
    ((awayTake 0 releasedPage).touch false 0 = some (awayTake 0 releasedPage) ∧
      (awayTake 0 releasedPage).record? 0 = some { gone with live := [37] } ∧ gone.state ≠ .retiring) ∧
    (releasedTake.dsu.serve = some .normal ∧ releasedTake.dsu.queues.get .normal = 37 :: [] ∧
      releasedTake.touch false 0 = some releasedTake ∧ releasedTake.message? 37 = some releasedPage ∧
      releasedTake.record? 0 = some { gone with state := .retiring, live := [37] } ∧ ([37] : List Nat).erase 37 = [] ∧
      releasedTake.pdu.waiters = [] ∧ releasedTake.pdu.extract.length < 64 ∧
      (extractOf 64 releasedTake).touch false 0 = some (extractOf 64 releasedTake) ∧
      64 ≤ (extractOf 64 releasedTake).pdu.extract.length) ∧
    (base.dsu.staging = none ∧ (onAir base).dsu.sending.isSome = true ∧ base.pins.ready = false ∧
      ({ base.pins with ehold := true } : Pins).ehold = true ∧ ({ base.dsu with hold := true } : Dsu).hold = true) ∧
    ((∃ b, (asked (staged base)).dsu.staging = some b) ∧ (asked (staged base)).dsu.sending = none ∧
      (asked (staged base)).pins.ready = true ∧ (asked (staged base)).pins.ehold = false ∧
      (asked (staged base)).dsu.hold = false ∧ (asked (staged base)).msu.flush = none) := by
  refine ⟨by decide, ?_, by decide, ?_, by decide, ⟨by decide, ⟨_, rfl, rfl, by decide⟩, by decide, by decide⟩, by decide,
    by decide, by decide, ⟨_, rfl⟩, by decide⟩
  · rintro s (rfl | rfl | rfl | rfl | rfl | rfl) <;> decide
  · rintro s (rfl | rfl) <;> decide

/-- Slot 37 as given, on the air, its owner as given. -/
def sent (r : Record) (m : Message) : State := onAir (carrying r [(37, { m with place := .sending })])

/-- A REJECT for the frame on the air. -/
def refusing (s : State) : State := { s with dsu := { s.dsu with refusal := true } }

theorem witness_FrameCompletionOutcomes :
    (base.dsu.sending = none ∧ Waiter.completion ∈ (waiting [.completion] (sent pager page)).pdu.waiters) ∧
    (∀ s, s = sent pager page ∨ s = refusing (sent pager page) ∨
        s = sweeping (extractOf 64 (sent pager { page with ackPending := true })) ∨
        s = sent pager { page with ackPending := true, cancelPending := true } ∨
        s = refusing (sent pager { page with cancelPending := true }) ∨
        s = sent { pager with kind := .oneWay } { page with kind := .oneWay } ∨
        s = sent { pager with state := .retiring } { page with cancelPending := true } ∨
        s = walking 0 (sent pager page) ∨ s = walking 2048 (sweeping (extractOf 64 (sent pager page))) →
      (s.dsu.sending.map (·.slot)) = some 37 ∧ Waiter.completion ∉ s.pdu.waiters ∧
      (s.message? 37).map (fun m => (m.owner, m.place)) = some (0, .sending)) ∧
    ((sent pager page).message? 37 = some { page with place := .sending } ∧ (sent pager page).msu.flush = none ∧
      page.ackPending = false ∧ page.cancelPending = false ∧ (refusing (sent pager page)).dsu.refusal = true ∧
      (sent pager page).dsu.refusal = false ∧ page.kind = .twoWay) ∧
    ((sweeping (extractOf 64 (sent pager { page with ackPending := true }))).touch false 0 = none ∧
      (walking 2048 (sweeping (extractOf 64 (sent pager page)))).touch false 0 = none) ∧
    (∀ s, s = sent pager { page with ackPending := true, cancelPending := true } ∨
        s = refusing (sent pager { page with cancelPending := true }) ∨ s = walking 0 (sent pager page) →
      s.touch false 0 = some s ∧ s.record? 0 = some { pager with live := [37] } ∧ pager.state ≠ .retiring) ∧
    ((sent { pager with kind := .oneWay } { page with kind := .oneWay }).touch false 0 =
        some (sent { pager with kind := .oneWay } { page with kind := .oneWay }) ∧
      (sent { pager with kind := .oneWay } { page with kind := .oneWay }).dsu.refusal = false) ∧
    (∃ s, s = sent { pager with state := .retiring } { page with cancelPending := true } ∧ s.touch false 0 = some s ∧
      s.record? 0 = some { pager with state := .retiring, live := [37] } ∧ ([37] : List Nat).erase 37 = [] ∧
      s.pdu.waiters = [] ∧ (extractOf 63 s).pdu.extract.length < 64 ∧ (extractOf 64 s).touch false 0 = some (extractOf 64 s) ∧
      64 ≤ (extractOf 64 s).pdu.extract.length) ∧
    (walking 0 (sent pager page)).msu.flush.isSome = true ∧
    (∃ s, s = walking 2048 (sent { pager with state := .retiring } page) ∧ s.msu.flush = some ⟨0, 2048, 0, 0⟩ ∧
      s.touch false 0 = some s ∧ s.record? 0 = some { pager with state := .retiring, live := [37] } ∧
      s.pdu.waiters = [] ∧ s.pdu.extract.length < 64 ∧ (extractOf 64 s).touch false 0 = some (extractOf 64 s) ∧
      64 ≤ (extractOf 64 s).pdu.extract.length) := by
  refine ⟨by decide, ?_, by decide, by decide, ?_, by decide, ⟨_, rfl, by decide⟩, by decide, ⟨_, rfl, by decide⟩⟩
  · rintro s (rfl | rfl | rfl | rfl | rfl | rfl | rfl | rfl | rfl) <;> decide
  · rintro s (rfl | rfl | rfl) <;> decide

theorem witness_PinEvents : base.dsu.sending = none ∧ (onAir base).dsu.sending.isSome = true ∧
    Waiter.completion ∉ (onAir base).pdu.waiters ∧
    Waiter.completion ∈ (waiting [.completion] (onAir base)).pdu.waiters := by decide

theorem witness_TransmitterFrameLayout :
    (15 < 16 ∧ 19 < 20 ∧ 6 < 7 ∧ 1 < 2 ∧ 2 < 3 ∧ (List.replicate 80 (0x41 : Byte))[79]? = some 0x41) ∧
    base.dsu.sending = none ∧ Waiter.completion ∈ (waiting [.completion] (onAir base)).pdu.waiters ∧
    (∃ b, (onAir base).dsu.sending = some b) ∧ Waiter.completion ∉ (onAir base).pdu.waiters :=
  ⟨by decide, by decide, by decide, ⟨_, rfl⟩, by decide⟩

/-! ## Witnesses: the return channel -/

/-- The settings of link B at the top of their ranges. -/
def linkArgs : LinkArgs := ⟨1, 4095, 1, 2⟩

theorem witness_ReturnLinkCommands : base.responseFull = false ∧
    (1 < (2 : Byte).toNat ∧ 4095 < (4096 : BitVec 16).toNat ∧ 2 < (3 : Byte).toNat) ∧
    (linkOf linkArgs.link = some .b ∧ linkArgs.n.toNat ≤ 4095 ∧ linkArgs.e.toNat ≤ 1 ∧
      parityOf linkArgs.parity = some .odd ∧ (base.receiver .b).state = .disabled) ∧
    ((linkIs { Receiver.reset with state := .hunting } base).receiver .a).state ≠ .disabled ∧
    (((0 : Byte) = 0 ∧ Link.a = .a) ∧ ((1 : Byte) = 1 ∧ Link.b = .b)) ∧
    ((base.line 3).state = .disabled ∧ ((base.putLine 3 { Line.reset with state := .idle }).line 3).state ≠ .disabled ∧
      ((base.putLine 3 { Line.reset with state := .idle }).receiver .b).state = .disabled) := by decide

theorem witness_RetryAndReturnStatus : base.responseFull = false ∧ (∃ n rest, (timedAt [37] base).aru.timed = n :: rest) ∧
    base.aru.timed = [] := ⟨by decide, ⟨_, _, rfl⟩, rfl⟩

/-- A link with `k` characters of a report, and its FIFO of `n` reports. -/
def arriving (k n : Nat) (spoiled episode : Bool) : Receiver := { Receiver.reset with
  state := .assembling, chars := [0xA5, 0x01, 0x06, 0x4A, 0xB9, 0x07].take k, spoiled, timer := some 0
  fifo := List.replicate n (.leave 1 0), episode }

/-- The lead 0xA5 and the kind 0x02 as a return link receives them, least significant bit first, the kind with the even
parity bit of its one 1; a character without its start bit is none (R130, R187). -/
theorem test_return_bits :
    Receiver.reset.sampled [false, true, false, true, false, false, true, false, true, true] =
      some ⟨0xA5, false, false, true⟩ ∧
    ({ Receiver.reset with parity := .even }).sampled
      [false, false, true, false, false, false, false, false, false, true, true] = some ⟨0x02, false, true, true⟩ ∧
    Receiver.reset.sampled [true, true, false, true, false, false, true, false, true, true] = none := by decide

theorem witness_ReportAssembly :
    ((base.receiver .a).state = .disabled ∧
      ((linkIs { Receiver.reset with state := .hunting } base).receiver .a).state = .hunting) ∧
    ((0xA5 : Byte) = 0xA5 ∧ (0xA4 : Byte) ≠ 0xA5 ∧ (!true || parityError .none 0xA5 none false) = false ∧
      (!false || parityError .none 0xA5 none false) = true) ∧
    ((arriving 5 0 false false).state = .assembling ∧ (arriving 5 0 false false).chars.length < 6 ∧
      6 ≤ (arriving 6 0 false false).chars.length) ∧
    ((arriving 6 0 true false).spoiled = true ∧
      reportOf ((arriving 6 0 false false).chars ++ [16]) = none ∧ (arriving 6 0 false false).spoiled = false ∧
      reportOf ((arriving 6 0 false false).chars ++ [15]) = some (.ack 412345 7 15)) ∧
    ((arriving 6 15 false false).fifo.length < 16 ∧ 16 ≤ (arriving 6 16 false true).fifo.length ∧
      (arriving 6 16 false true).episode = true ∧ 16 ≤ (arriving 6 16 false false).fifo.length ∧
      (arriving 6 16 false false).episode = false) ∧
    (({ arriving 5 0 false false with timer := some 3 }).timer = some 3 ∧ 3 ≤ 3 ∧
      ({ arriving 5 0 false false with timer := some 2 }).timer = some 2 ∧ 2 < 3) ∧
    ((0 = 65536 * (0 : Byte).toNat + 256 * (0 : Byte).toNat + (0 : Byte).toNat) ∧
      (1048575 = 65536 * (0x0F : Byte).toNat + 256 * (0xFF : Byte).toNat + (0xFF : Byte).toNat) ∧
      (1048576 = 65536 * (0x10 : Byte).toNat + 256 * (0 : Byte).toNat + (0 : Byte).toNat) ∧ 1048575 < 1048576 ∧
      15 < (16 : Byte).toNat ∧ (15 : Byte).toNat ≤ 15 ∧ 127 < (128 : Byte).toNat ∧ (127 : Byte).toNat ≤ 127 ∧
      ((4 : Byte) ≠ 1 ∧ (4 : Byte) ≠ 2 ∧ (4 : Byte) ≠ 3)) := by decide

/-- Link A with one report, taken with every zone out of service. -/
def reporting (rep : Report) (s : State) : State := linkIs { Receiver.reset with fifo := [rep] } s

/-- An aired AWAITING slot 37 of the owner given. -/
def aired (r : Record) : State :=
  timedAt [37] (carrying r [(37, { page with place := .awaiting 0, aired := true, attempts := 1 })])

/-- The record of slots 1 to 4, all held, AWAY. -/
def heldFour : State := timedAt [1, 2, 3, 4] (carrying { gone with held := [1, 2, 3, 4] }
  [(1, heldPage), (2, heldPage), (3, heldPage), (4, heldPage)])

theorem witness_ReportTaken :
    ((base.receiver .a).fifo = [] ∧ (waiting [.report .a] base).reportWaits .a = true) ∧
    (∀ s rep, s = reporting rep State.reset ∨ s = reporting rep base ∨ s = reporting rep (holding pager) ∨
        s = reporting rep (holding { pager with kind := .oneWay }) ∨ s = reporting rep heldFour ∨
        s = reporting rep (aired pager) →
      (s.receiver .a).fifo = rep :: [] ∧ s.reportWaits .a = false) ∧
    (State.reset.stu.state ≠ .ready ∧ base.findAddress 412345 = none ∧
      ((holding { pager with kind := .oneWay }).findAddress 412345 = some 0 ∧
        (holding { pager with kind := .oneWay }).record? 0 = some { pager with kind := .oneWay })) ∧
    ((holding pager).stu.state = .ready ∧ (holding pager).findAddress 412345 = some 0 ∧
      (holding pager).record? 0 = some pager ∧ pager.kind = .twoWay) ∧
    (heldFour.stu.state = .ready ∧ heldFour.findAddress 412345 = some 0 ∧
      (∃ r, heldFour.record? 0 = some r ∧ r.kind = .twoWay ∧ r.held.Nodup ∧ 4 ∈ r.held) ∧
      heldFour.message? 4 = some heldPage) ∧
    ((∀ n ∈ pager.live, ∀ m, (holding pager).message? n = some m → m.tag = 7 → m.aired = false) ∧
      (one page).message? 37 = some page ∧ page.tag = 7 ∧ page.aired = false) ∧
    (∃ m, (aired pager).message? 37 = some m ∧ m.tag = 7 ∧ m.aired = true ∧ m.owner = 0 ∧ m.place ≠ .sending ∧
      (aired pager).record? 0 = some { pager with live := [37] } ∧
      (∀ k ∈ ([37] : List Nat), k ≠ 37 → ∀ m', (aired pager).message? k = some m' → m'.tag ≠ 7)) ∧
    (∃ m, (sent pager { page with aired := true, attempts := 1 }).message? 37 = some m ∧ m.tag = 7 ∧ m.aired = true ∧
      m.place = .sending) ∧
    ((sweeping (extractOf 64 (reporting (.ack 412345 7 15) (aired pager)))).touch false 0 = none ∧
      (reporting (.ack 412345 7 15) (aired pager)).touch false 0 = some (reporting (.ack 412345 7 15) (aired pager)) ∧
      pager.state ≠ .retiring) ∧
    (∀ s, s = reporting (.ack 412345 7 15) (aired { pager with state := .retiring }) →
      s.touch false 0 = some s ∧ s.record? 0 = some { pager with state := .retiring, live := [37] } ∧
      ([37] : List Nat).erase 37 = [] ∧ s.pdu.waiters = [] ∧ (extractOf 63 s).pdu.extract.length < 64 ∧
      (extractOf 64 s).touch false 0 = some (extractOf 64 s) ∧ 64 ≤ (extractOf 64 s).pdu.extract.length) := by
  refine ⟨by decide, ?_, by decide, by decide, ⟨by decide, by decide, ⟨_, rfl, rfl, by decide, by decide⟩, by decide⟩,
    ⟨fun n h => (by cases h), by decide⟩, ⟨_, rfl, rfl, rfl, rfl, by decide, by decide, ?_⟩, ⟨_, rfl, rfl, rfl, rfl⟩,
    by decide, ?_⟩
  · rintro s rep (rfl | rfl | rfl | rfl | rfl | rfl) <;> exact ⟨rfl, rfl⟩
  · intro k hk hne
    simp at hk
    exact absurd hk hne
  · rintro s rfl
    decide

/-- Slot 37 as given at the head of the timed list, its owner with the held slots 1 to `k`. -/
def due (k : Nat) (r : Record) (m : Message) : State :=
  timedAt [37] (carrying { r with held := (List.range k).map (· + 1) }
    ((37, m) :: (List.range k).map fun i => (i + 1, heldPage)))

/-- An AWAITING page with `a` attempts, due at the deadline given. -/
def awaited (a : Nat) (d : Tick) (released : Bool) : Message :=
  { page with place := .awaiting d, aired := true, attempts := a, released }

theorem witness_ExpiryOutcomes :
    (base.aru.timed = [] ∧ (waiting [.expiry] base).expiryWaits = true ∧
      ((due 0 pager (awaited 1 1 false)).aru.timed = 37 :: [] ∧
        (due 0 pager (awaited 1 1 false)).message? 37 = some (awaited 1 1 false) ∧
        0 < ((1 : Tick) - (due 0 pager (awaited 1 1 false)).pdu.tick).toInt)) ∧
    (∀ s, s = due 0 pager (awaited 3 0 false) ∨ s = due 3 pager (awaited 4 0 false) ∨
        s = sweeping (extractOf 64 (due 4 pager (awaited 4 0 false))) ∨ s = due 0 pager { page with place := .held 0 } ∨
        s = due 0 pager (awaited 4 0 true) ∨ s = due 0 { pager with state := .retiring } (awaited 4 0 true) ∨
        s = due 4 gone (awaited 1 0 false) →
      s.aru.timed = 37 :: [] ∧ s.expiryWaits = false ∧ (s.message? 37).map (·.owner) = some 0 ∧
      (s.record? 0).isSome = true ∧ ((0 : Tick) - s.pdu.tick).toInt ≤ 0) ∧
    ((awaited 3 0 false).place = .awaiting 0 ∧ (awaited 3 0 false).attempts < base.aru.aMax ∧ pager.presence ≠ .away) ∧
    (base.aru.aMax ≤ (awaited 4 0 false).attempts ∧ (awaited 4 0 false).released = false ∧
      ((due 3 pager (awaited 4 0 false)).record? 0).map (fun r => r.held.length) = some 3) ∧
    (sweeping (extractOf 64 (due 4 pager (awaited 4 0 false)))).touch false 0 = none ∧
    (∀ s, s = due 0 pager { page with place := .held 0 } ∨ s = due 0 pager (awaited 4 0 true) →
      s.touch false 0 = some s ∧ s.record? 0 = some { pager with live := [37] } ∧ pager.state ≠ .retiring) ∧
    (∀ s, s = due 0 { pager with state := .retiring } (awaited 4 0 true) →
      s.touch false 0 = some s ∧ s.record? 0 = some { pager with state := .retiring, live := [37] } ∧
      ([37] : List Nat).erase 37 = [] ∧ s.pdu.waiters = [] ∧ (extractOf 63 s).pdu.extract.length < 64 ∧
      (extractOf 64 s).touch false 0 = some (extractOf 64 s) ∧ 64 ≤ (extractOf 64 s).pdu.extract.length) ∧
    ((due 4 gone (awaited 1 0 false)).touch false 0 = some (due 4 gone (awaited 1 0 false)) ∧
      (∃ r, (due 4 gone (awaited 1 0 false)).record? 0 = some r ∧ r.presence = .away ∧ r.held = 1 :: [2, 3, 4] ∧
        3 ≤ ([2, 3, 4] : List Nat).length) ∧
      (due 4 gone (awaited 1 0 false)).message? 1 = some heldPage ∧ heldPage.owner = 0 ∧ heldPage.place = .held 0 ∧
      (due 4 gone (awaited 1 0 false)).aru.timed.Nodup) := by
  refine ⟨by decide, ?_, by decide, by decide, by decide, ?_, ?_, by decide, ⟨_, rfl, rfl, rfl, by decide⟩, by decide,
    by decide, by decide, by decide⟩
  · rintro s (rfl | rfl | rfl | rfl | rfl | rfl | rfl) <;> decide
  · rintro s (rfl | rfl) <;> decide
  · rintro s rfl
    decide

/-! ## Witnesses: the Period Unit -/

theorem witness_TimebaseCommands : base.responseFull = false ∧ (0 : BitVec 16) = 0 ∧ 1 < (2 : Byte).toNat ∧
    ((65535 : BitVec 16) ≠ 0 ∧ (1 : Byte).toNat ≤ 1) := by decide

/-- The last tick of a minute, auto-close ON at the minute that begins. -/
def closingTime : State := { base with pdu := { base.pdu with tickMinute := 599, minute := 16777215, auto := true } }

theorem witness_TickAndMinute : base.pdu.tickMinute < 599 ∧
    ({ base.pdu with tickMinute := 598 } : Pdu).tickMinute < 599 ∧
    (closingTime.pdu.tickMinute = 599 ∧ 0 = (closingTime.pdu.minute + 1) % 16777216 ∧ closingTime.pdu.auto = true ∧
      0 = closingTime.pdu.closeAt ∧ closingTime.pdu.sweep = .idle ∧ closingTime.clu.notices.length < 32) ∧
    ((sweeping closingTime).pdu.sweep ≠ .idle ∧ (sweeping closingTime).clu.notices.length < 32) ∧
    (32 ≤ (noticesOf 32 closingTime).clu.notices.length ∧ (noticesOf 32 closingTime).pdu.tickMinute = 599 ∧
      (noticesOf 32 closingTime).pdu.auto = true ∧ 0 = (noticesOf 32 closingTime).pdu.closeAt) ∧
    (base.pdu.auto = false ∧ 1 ≠ base.pdu.closeAt) := by decide

/-- A sweep at record `n`. -/
def visiting (n : Nat) (s : State) : State := { sweeping s with pdu := { (sweeping s).pdu with cursor := n } }

theorem witness_CloseSweepAndExtract : base.responseFull = false ∧ (sweeping base).pdu.sweep ≠ .idle ∧
    base.pdu.sweep = .idle ∧ ((0 : Byte) = 0 ∧ 8 < (9 : Byte).toNat) ∧
    (1 ≤ (1 : Byte).toNat ∧ (8 : Byte).toNat ≤ 8) ∧ base.pdu.sweep ≠ .sweeping ∧
    ((sweeping (extractOf 56 base)).pdu.sweep = .sweeping ∧ 56 ≤ (sweeping (extractOf 56 base)).pdu.extract.length ∧
      (waiting [.walk] (sweeping base)).pdu.waiters ≠ []) ∧
    ((sweeping (extractOf 55 base)).pdu.extract.length < 56 ∧ (sweeping base).pdu.waiters = []) ∧
    ((visiting 8192 base).stu.capacity ≤ (visiting 8192 base).pdu.cursor ∧
      (visiting 8191 base).pdu.cursor < (visiting 8191 base).stu.capacity) ∧
    ((visiting 8191 base).record? 8191 = none ∧ ({ base.stu with state := .formatting } : Stu).state ≠ .ready ∧
      (visiting 0 (holding { pager with periodTag := 1 })).record? 0 = some { pager with periodTag := 1 }) ∧
    ((visiting 0 (holding pager)).stu.state = .ready ∧ (visiting 0 (holding pager)).record? 0 = some pager ∧
      pager.periodTag ≠ (visiting 0 (holding pager)).pdu.period) := by decide

/-- A RETIRE that waits for extract space with response place 0. -/
def heldRetire : Waiter := .command 0 (.retire 5551234 1)

/-- The state with that RETIRE in progress, the list of waiters as given. -/
def heldUp (ws : List Waiter) (s : State) : State := waiting ws { s with
  clu := { s.clu with inProgress := [⟨0, 0x13, 0x21⟩] }, msu := { s.msu with flush := some ⟨0, 5, 0, 0⟩ } }

theorem witness_WaiterTurnTakesHead :
    (base.pdu.waiters = [] ∧ 64 ≤ (waiting [.walk] (extractOf 64 base)).pdu.extract.length) ∧
    (∀ w s, s = waiting [w] (extractOf 63 base) → s.pdu.waiters = w :: [] ∧ s.pdu.extract.length < 64) ∧
    (∃ t result params, (holding pager).retake 0 (.retire 5551234 1) = (t, .now result params)) ∧
    (∃ t, (sweeping (extractOf 64 (holding pager))).retake 0 (.retire 5551234 1) = (t, .later)) ∧
    (base.takeAllowed = false ∧ (live (queued (one page))).takeAllowed = true) ∧
    (base.dueHead = none ∧ (due 0 pager (awaited 3 0 false)).dueHead.isSome = true) ∧
    (∀ h, (waiting [.closing 0 h] (sweeping (holding pager))).record? 0 = some pager) ∧
    ((sweeping (extractOf 63 (holding pager))).pdu.sweep ≠ .idle ∧
      pager.periodTag ≠ (sweeping (extractOf 63 (holding pager))).pdu.period ∧
      (sweeping (extractOf 63 (holding pager))).pdu.extract.length = 63 ∧
      (sweeping (extractOf 62 (holding pager))).pdu.extract.length < 63) ∧
    ((holding pager).pdu.sweep = .idle ∧ ({ pager with periodTag := 1 }).periodTag = (sweeping base).pdu.period) ∧
    (∃ g f, (heldUp [.closing 0 (.answer 0 [])] (holding pager)).clu.inProgress.find? (fun g => g.place == 0) = some g ∧
      (heldUp [.closing 0 .walk] (holding pager)).msu.flush = some f) :=
  ⟨by decide, fun w s h => (by subst h; exact ⟨rfl, (by decide : 63 < 64)⟩), ⟨_, _, _, rfl⟩, ⟨_, rfl⟩, by decide, by decide,
    fun _ => rfl, by decide, by decide, ⟨_, _, rfl, rfl⟩⟩

/-- A TRAFFIC RESET in progress with its walk at its end. -/
def resetEnding : State := { walking 2048 base with clu := { base.clu with inProgress := [⟨0, 0x22, 0x21⟩] } }

/-- The walk's last step ends the TRAFFIC RESET and answers it: no slot flushed, no record freed (R51). -/
theorem test_reset_response : (after .flushWalkStep { walking 2047 base with
    clu := { base.clu with inProgress := [⟨0, 0x22, 0x21⟩] } }).clu.responses = [⟨0x22, 0x21, .ok, [0, 0, 0, 0]⟩] := by
  decide

/-- The last zone goes out with a page waiting: ZONE OUTAGE; and comes back: ZONE RESTORED with the live set (R118). -/
theorem test_outage_notices :
    (after (.setZones 0 0) (live (queued (one page)))).clu.notices.map (·.kind) = [.zoneOutage] ∧
    (after (.setZones 0 4) { live (queued (one page)) with dsu := { (queued (one page)).dsu with
      outage := true } }).clu.notices.map (·.kind) = [.zoneRestored 4] := by decide

theorem witness_AfterTraffic :
    (∀ s, s = base ∨ s = walking 0 base → s.takeAllowed = false ∧ s.moveAllowed = false ∧ s.outageDue = false ∧
      s.dsu.outage = false ∧ (∀ f, s.msu.flush = some f → s.resetDone f = false) ∧ s.pdu.sweep ≠ .stalled) ∧
    ({ base.dsu with outage := true } : Dsu).outage = true ∧ State.reset.liveZones = 0 ∧
    56 ≤ (extractOf 56 base).pdu.extract.length ∧ (waiting [.walk] base).pdu.waiters ≠ [] ∧
    (live (queued (one page))).dsu.rotationGood = true ∧
    (∃ f g, resetEnding.msu.flush = some f ∧ 2048 ≤ f.cursor ∧ resetEnding.dsu.sending = none ∧
      resetEnding.pdu.waiters = [] ∧ resetEnding.clu.inProgress.find? (fun g => g.place == f.place) = some g) ∧
    (0 < 2048 ∧ (walking 2048 (onAir base)).dsu.sending.isSome = true ∧
      Waiter.closing 0 (.alone true) ∈ (waiting [.closing 0 (.alone true)] (walking 2048 base)).pdu.waiters) ∧
    ((queued (one page)).dsu.outage = false ∧ (queued (one page)).dsu.queues ≠ ⟨[], [], [], []⟩ ∧
      (queued (one page)).msu.flush = none ∧ (queued (one page)).dsu.staging = none ∧
      (queued (one page)).liveZones = 0 ∧ (noticesOf 31 (queued (one page))).clu.notices.length < 32 ∧
      32 ≤ (noticesOf 32 (queued (one page))).clu.notices.length) ∧
    ((asked (staged (queued (one page)))).dsu.staging.isSome = true ∧
      (asked (staged (queued (one page)))).dsu.sending = none ∧ (asked (staged (queued (one page)))).pins.ready = true ∧
      (asked (staged (queued (one page)))).pins.ehold = false ∧ (asked (staged (queued (one page)))).dsu.hold = false) ∧
    base.dsu.queues = ⟨[], [], [], []⟩ ∧ (live (queued (one page))).liveZones ≠ 0 := by
  refine ⟨?_, by decide, by decide, by decide, by decide, by decide, ⟨_, _, rfl, by decide, rfl, rfl, rfl⟩, by decide⟩
  rintro s (rfl | rfl)
  · exact ⟨by decide, by decide, by decide, by decide, fun f h => (by cases h), by decide⟩
  · exact ⟨by decide, by decide, by decide, by decide, fun f h => (by cases h; rfl), by decide⟩

/-- One page in slot 0, QUEUED with every zone out, the record and the slot taken from full free lists, and a CANCEL of
it waiting to be taken. -/
def kept : State := { holding { pager with live := [0] } with
  stu := { (holding { pager with live := [0] }).stu with free := ⟨[], 1, 8192⟩, freeCount := 8191 }
  msu := { base.msu with slots := [(0, ⟨3, some page⟩)], free := ⟨[], 1, 2048⟩, freeCount := 2047 }
  dsu := { base.dsu with queues := ⟨[], [0], [], []⟩, outage := true }
  pending := [.cancel 0 6144] }

theorem witness_StepKeepsStore : kept.canonical = true ∧ kept.storeGood = true ∧ kept.messages ≠ [] ∧
    (∃ t, step kept = .next t) ∧ (after (.cancel 0 6144) kept).messages = [] :=
  ⟨by decide, by decide, by decide, ⟨_, rfl⟩, by decide⟩

end Sys2Proof.Tests
end

section
/-! The store invariant `State.storeGood` as facts about what the state reads: the two tables as functions, the chains
of the two indexes, the places, and the waiters. `State.Kept` says it with two kinds of hole, for the moments inside an
event: slots that are in no place, and records whose freeing is still to be looked at. -/

namespace Sys2Proof.Machine
open Sys2Proof

/-! ## Free lists -/

/-- A free list with its count beside the numbers in use: `used i` is present exactly for those (R10, R33). -/
structure FreeList.Counts {α : Type} (f : FreeList) (count : Nat) (used : Nat → Option α) : Prop where
  inLimit : f.fresh ≤ f.limit
  count_eq : count = f.size
  nodup : f.pushed.Nodup
  given : ∀ i, i < f.fresh ↔ i ∈ f.pushed ∨ (used i).isSome
  unused : ∀ i ∈ f.pushed, used i = none

variable {α : Type}

theorem FreeList.accounts_iff {f : FreeList} {count : Nat} {used : Nat → Option α} {keys : List Nat}
    (hnodup : keys.Nodup) (hkeys : ∀ i, i ∈ keys ↔ (used i).isSome) :
    f.accounts count keys = true ↔ f.Counts count used := by
  simp only [FreeList.accounts, Bool.and_eq_true, decide_eq_true_eq, beq_iff_eq, List.all_eq_true]
  constructor
  · rintro ⟨⟨⟨⟨hlim, hnd⟩, hlt⟩, hlen⟩, hcount⟩
    obtain ⟨hp, -, hdisj⟩ := List.nodup_append'.mp hnd
    have hperm : (f.pushed ++ keys).Perm (List.range f.fresh) :=
      (List.subperm_of_subset hnd fun i hi => List.mem_range.mpr (hlt i hi)).perm_of_length_le (by simp [hlen])
    refine ⟨hlim, hcount, hp, fun i => ?_, fun i hi => ?_⟩
    · rw [← List.mem_range, ← hperm.mem_iff, List.mem_append, hkeys]
    · simpa [hkeys] using hdisj hi
  · rintro ⟨hlim, hcount, hp, hgiven, hunused⟩
    have hnd : (f.pushed ++ keys).Nodup :=
      List.nodup_append'.mpr ⟨hp, hnodup, fun i hi hk => by simp [hkeys, hunused i hi] at hk⟩
    have hmem : ∀ i, i ∈ f.pushed ++ keys ↔ i ∈ List.range f.fresh := fun i => by
      rw [List.mem_append, hkeys, List.mem_range, hgiven]
    have hperm := (List.perm_ext_iff_of_nodup hnd List.nodup_range).mpr hmem
    exact ⟨⟨⟨⟨hlim, hnd⟩, fun i hi => List.mem_range.mp ((hmem i).mp hi)⟩, by simpa using hperm.length_eq⟩, hcount⟩

namespace FreeList.Counts
variable {f g : FreeList} {count i : Nat} {used : Nat → Option α} {v : α}

/-- The number that a take gives was not in use, and is then. -/
theorem take (h : f.Counts count used) (ht : f.take = some (i, g)) :
    used i = none ∧ g.Counts (count - 1) (Function.update used i (some v)) := by
  obtain ⟨hlim, hcount, hp, hgiven, hunused⟩ := h
  unfold FreeList.take at ht
  split at ht
  next j rest hpushed =>
    cases ht
    rw [hpushed] at hp hgiven hunused
    obtain ⟨hi, hrest⟩ := List.nodup_cons.mp hp
    refine ⟨hunused i (by simp), hlim, by simp [hcount, FreeList.size, hpushed], hrest, fun k => ?_, fun k hk => ?_⟩
    · by_cases hk : k = i
      · subst hk; simpa using (hgiven k).mpr (by simp)
      · simpa [hk] using hgiven k
    · have hki : k ≠ i := fun e => hi (e ▸ hk)
      simpa [hki] using hunused k (by simp [hk])
  next hpushed =>
    split at ht
    next hlt =>
      cases ht
      have hfresh : used f.fresh = none := by
        simpa [hpushed] using (hgiven f.fresh).not.mp (Nat.lt_irrefl _)
      refine ⟨hfresh, by simpa using hlt, by simp [hcount, FreeList.size]; omega, hp, fun k => ?_, by simp [hpushed]⟩
      by_cases hk : k = f.fresh
      · simp [hk]
      · have := hgiven k
        simp only [hpushed, List.not_mem_nil, false_or] at this
        simp only [hpushed, List.not_mem_nil, false_or, Function.update_of_ne hk, ← this]
        omega
    next => cases ht

/-- A number in use is pushed. -/
theorem push (h : f.Counts count used) (hi : (used i).isSome) :
    (f.push i).Counts (count + 1) (Function.update used i none) := by
  obtain ⟨hlim, hcount, hp, hgiven, hunused⟩ := h
  have hnot : i ∉ f.pushed := fun hm => by simp [hunused i hm] at hi
  refine ⟨hlim, by simp [hcount, FreeList.size, FreeList.push]; omega, by simp [FreeList.push, hp, hnot],
    fun k => ?_, fun k hk => ?_⟩
  · by_cases hk : k = i
    · subst hk; simpa [FreeList.push] using (hgiven k).mpr (.inr hi)
    · simpa [FreeList.push, hk] using hgiven k
  · by_cases hki : k = i
    · simp [hki]
    · simpa [hki] using hunused k (by simpa [FreeList.push, hki] using hk)

/-- What is in use matters, and not its value. -/
theorem congr {β : Type} {used' : Nat → Option β} (h : f.Counts count used)
    (hu : ∀ k, (used' k).isSome = (used k).isSome) : f.Counts count used' := by
  obtain ⟨hlim, hcount, hp, hgiven, hunused⟩ := h
  refine ⟨hlim, hcount, hp, fun k => by rw [hgiven, hu], fun k hk => ?_⟩
  simpa [hunused k hk] using hu k

/-- With a positive count a take answers. -/
theorem count_pos (h : f.Counts count used) (ht : f.take = some (i, g)) : 0 < count := by
  have := h.count_eq
  unfold FreeList.take at ht
  split at ht
  next hp => simp [FreeList.size, hp] at this; omega
  next => split at ht <;> simp [FreeList.size] at this ht; omega

end FreeList.Counts

/-- A full list, nothing in use (R12). -/
theorem FreeList.counts_full (limit : Nat) : (FreeList.full limit).Counts limit fun _ => (none : Option α) :=
  ⟨Nat.zero_le _, by simp [FreeList.full, FreeList.size], List.nodup_nil, fun i => by simp [FreeList.full],
    fun _ _ => rfl⟩

/-- The empty list, nothing in use. -/
theorem FreeList.counts_empty : FreeList.empty.Counts 0 fun _ => (none : Option α) := FreeList.counts_full 0

/-! ## The indexes -/

/-- An index: each chain holds, once, exactly the listed records of its bucket, and no two listed records share a key
(R5, R9). -/
structure Indexed (record : Nat → Option Record) (listed : Record → Prop) (key : Record → Nat) (bucket : Nat → Nat)
    (chain : Nat → List Nat) : Prop where
  nodup : ∀ b, (chain b).Nodup
  mem_iff : ∀ b i, i ∈ chain b ↔ ∃ r, record i = some r ∧ listed r ∧ bucket (key r) = b
  unique : ∀ {i j r r'}, record i = some r → record j = some r' → listed r → listed r' → key r = key r' → i = j

namespace Indexed
variable {record : Nat → Option Record} {listed : Record → Prop} {key : Record → Nat} {bucket : Nat → Nat}
  {chain : Nat → List Nat} {i k : Nat} {r r' : Record}

/-- The walk of a chain finds exactly the listed record of the key (R9). -/
theorem find_iff (h : Indexed record listed key bucket chain) :
    (chain (bucket k)).find? (fun j => (record j).any fun r => key r == k) = some i ↔
      ∃ r, record i = some r ∧ listed r ∧ key r = k := by
  constructor
  · intro hf
    obtain ⟨r, hr, hl, -⟩ := (h.mem_iff _ _).mp (List.mem_of_find?_eq_some hf)
    have hk := List.find?_some hf
    exact ⟨r, hr, hl, by simpa [hr] using hk⟩
  · rintro ⟨r, hr, hl, rfl⟩
    have hi : i ∈ chain (bucket (key r)) := (h.mem_iff _ _).mpr ⟨r, hr, hl, rfl⟩
    cases hf : (chain (bucket (key r))).find? (fun j => (record j).any fun x => key x == key r) with
    | none => simpa [hr] using List.find?_eq_none.mp hf i hi
    | some j =>
      obtain ⟨x, hx, hlx, -⟩ := (h.mem_iff _ _).mp (List.mem_of_find?_eq_some hf)
      have hk := List.find?_some hf
      simp only [hx, Option.any_some, beq_iff_eq] at hk
      rw [h.unique hx hr hlx hl hk]

theorem find_none_iff (h : Indexed record listed key bucket chain) :
    (chain (bucket k)).find? (fun j => (record j).any fun r => key r == k) = none ↔
      ∀ i r, record i = some r → listed r → key r ≠ k := by
  constructor
  · intro hf i r hr hl hk
    exact absurd (h.find_iff.mpr ⟨r, hr, hl, hk⟩) (by simp [hf])
  · intro hn
    cases hf : (chain (bucket k)).find? (fun j => (record j).any fun r => key r == k) with
    | none => rfl
    | some i =>
      obtain ⟨r, hr, hl, hk⟩ := h.find_iff.mp hf
      exact absurd hk (hn i r hr hl)

/-- A change of a record that keeps its key and whether it is listed. -/
theorem change (h : Indexed record listed key bucket chain) (hr : record i = some r) (hl : listed r' ↔ listed r)
    (hk : key r' = key r) : Indexed (Function.update record i (some r')) listed key bucket chain := by
  have hread : ∀ j x, Function.update record i (some r') j = some x →
      ∃ y, record j = some y ∧ (listed x ↔ listed y) ∧ key x = key y := by
    intro j x hx
    by_cases hj : j = i
    · subst hj; simp only [Function.update_self, Option.some.injEq] at hx; subst hx; exact ⟨r, hr, hl, hk⟩
    · rw [Function.update_of_ne hj] at hx; exact ⟨x, hx, Iff.rfl, rfl⟩
  refine ⟨h.nodup, fun b j => ?_, fun {j j' x x'} hx hx' hlx hlx' hkx => ?_⟩
  · rw [h.mem_iff]
    by_cases hj : j = i
    · subst hj; simp [hr, hl, hk]
    · simp [hj]
  · obtain ⟨y, hy, hly, hky⟩ := hread j x hx
    obtain ⟨y', hy', hly', hky'⟩ := hread j' x' hx'
    exact h.unique hy hy' (hly.mp hlx) (hly'.mp hlx') (by rw [← hky, ← hky', hkx])

/-- A listed record is unlinked and leaves the table. -/
theorem remove (h : Indexed record listed key bucket chain) (hr : record i = some r) (hl : listed r) :
    Indexed (Function.update record i none) listed key bucket
      (Function.update chain (bucket (key r)) ((chain (bucket (key r))).erase i)) := by
  refine ⟨fun b => ?_, fun b j => ?_, fun {j j' x x'} hx hx' hlx hlx' hkx => ?_⟩
  · by_cases hb : b = bucket (key r)
    · subst hb; simpa using (h.nodup _).erase i
    · simpa [hb] using h.nodup b
  · by_cases hj : j = i
    · subst hj
      by_cases hb : b = bucket (key r)
      · subst hb; simp [(h.nodup _).mem_erase_iff]
      · simp [hb, h.mem_iff, hr, hl, Ne.symm hb]
    · by_cases hb : b = bucket (key r)
      · subst hb; simp [(h.nodup _).mem_erase_iff, hj, h.mem_iff]
      · simp [hb, hj, h.mem_iff]
  · by_cases hj : j = i
    · simp [hj] at hx
    · by_cases hj' : j' = i
      · simp [hj'] at hx'
      · exact h.unique (by simpa [hj] using hx) (by simpa [hj'] using hx') hlx hlx' hkx

/-- A record that is not listed leaves the table. -/
theorem removeUnlisted (h : Indexed record listed key bucket chain) (hr : record i = some r) (hl : ¬ listed r) :
    Indexed (Function.update record i none) listed key bucket chain := by
  refine ⟨h.nodup, fun b j => ?_, fun {j j' x x'} hx hx' hlx hlx' hkx => ?_⟩
  · by_cases hj : j = i
    · subst hj; simp [h.mem_iff, hr, hl]
    · simp [hj, h.mem_iff]
  · by_cases hj : j = i
    · simp [hj] at hx
    · by_cases hj' : j' = i
      · simp [hj'] at hx'
      · exact h.unique (by simpa [hj] using hx) (by simpa [hj'] using hx') hlx hlx' hkx

/-- A record joins the table and the chain of its key, which no listed record had. -/
theorem insert (h : Indexed record listed key bucket chain) (hr : record i = none) (hl : listed r)
    (hk : ∀ j x, record j = some x → listed x → key x ≠ key r) :
    Indexed (Function.update record i (some r)) listed key bucket
      (Function.update chain (bucket (key r)) (i :: chain (bucket (key r)))) := by
  have hnot : ∀ b, i ∉ chain b := fun b hi => by simp [h.mem_iff, hr] at hi
  refine ⟨fun b => ?_, fun b j => ?_, fun {j j' x x'} hx hx' hlx hlx' hkx => ?_⟩
  · by_cases hb : b = bucket (key r)
    · subst hb; simp [hnot, h.nodup]
    · simpa [hb] using h.nodup b
  · by_cases hj : j = i
    · subst hj
      by_cases hb : b = bucket (key r)
      · simp [hb, hl]
      · simp [hb, hnot, Ne.symm hb]
    · by_cases hb : b = bucket (key r)
      · subst hb; simp [hj, h.mem_iff]
      · simp [hb, hj, h.mem_iff]
  · by_cases hj : j = i
    · subst hj
      by_cases hj' : j' = j
      · exact hj'.symm
      · simp only [Function.update_self, Option.some.injEq] at hx
        exact absurd (hx ▸ hkx).symm (hk j' x' (by simpa [hj'] using hx') hlx')
    · have hxj : record j = some x := by simpa [hj] using hx
      by_cases hj' : j' = i
      · subst hj'
        simp only [Function.update_self, Option.some.injEq] at hx'
        exact absurd (hx' ▸ hkx) (hk j x hxj hlx)
      · exact h.unique hxj (by simpa [hj'] using hx') hlx hlx' hkx

/-- A record that is not listed joins the table. -/
theorem insertUnlisted (h : Indexed record listed key bucket chain) (hr : record i = none) (hl : ¬ listed r) :
    Indexed (Function.update record i (some r)) listed key bucket chain := by
  have hread : ∀ j x, Function.update record i (some r) j = some x → listed x → record j = some x := by
    intro j x hx hlx
    by_cases hj : j = i
    · subst hj; simp only [Function.update_self, Option.some.injEq] at hx; exact absurd (hx ▸ hlx) hl
    · simpa [hj] using hx
  refine ⟨h.nodup, fun b j => ?_, fun {j j' x x'} hx hx' hlx hlx' hkx =>
    h.unique (hread j x hx hlx) (hread j' x' hx' hlx') hlx hlx' hkx⟩
  by_cases hj : j = i
  · subst hj; simp [h.mem_iff, hr, hl]
  · simp [hj, h.mem_iff]

/-- An index of an empty table. -/
theorem empty : Indexed (fun _ => none) listed key bucket fun _ => [] :=
  ⟨fun _ => List.nodup_nil, fun b i => by simp, fun {i j r r'} h => by simp at h⟩

end Indexed

end Sys2Proof.Machine
end


section
namespace Sys2Proof.Machine
open Sys2Proof

/-! ## Places -/

/-- The slots of the four queues. -/
def Queues.slots (q : Queues) : List Nat := q.urgent ++ q.normal ++ q.deferred ++ q.retry

/-- The place is the timed list. -/
def Place.isTimed : Place → Bool
  | .awaiting _ | .held _ => true
  | _ => false

/-- Each slot that has a place stands, once, in the list or buffer that the place names, and these hold no other slot
(R31). -/
structure Places (place : Nat → Option Place) (queued : List Nat) (staged sending : Option Nat) (timed : List Nat) :
    Prop where
  queued_nodup : queued.Nodup
  timed_nodup : timed.Nodup
  queued_iff : ∀ n, n ∈ queued ↔ place n = some .queued
  staged_iff : ∀ n, staged = some n ↔ place n = some .staged
  sending_iff : ∀ n, sending = some n ↔ place n = some .sending
  timed_iff : ∀ n, n ∈ timed ↔ ∃ p, place n = some p ∧ p.isTimed = true

namespace Places
variable {place : Nat → Option Place} {queued timed l : List Nat} {staged sending : Option Nat} {n : Nat} {p : Place}

/-- A queued slot leaves its queue. -/
theorem dequeue (h : Places place queued staged sending timed) (hl : queued.Perm (n :: l)) :
    Places (Function.update place n none) l staged sending timed := by
  obtain ⟨hqn, htn, hq, hs, he, ht⟩ := h
  have hn : place n = some .queued := (hq n).mp (hl.mem_iff.mpr (by simp))
  obtain ⟨hnot, hnd⟩ := List.nodup_cons.mp (hl.nodup_iff.mp hqn)
  refine ⟨hnd, htn, fun k => ?_, fun k => ?_, fun k => ?_, fun k => ?_⟩ <;> by_cases hk : k = n
  · subst hk; simp [hnot]
  · simp [hk, ← hq, hl.mem_iff]
  · subst hk; simp [hs, hn]
  · simp [hk, hs]
  · subst hk; simp [he, hn]
  · simp [hk, he]
  · subst hk; simp [ht, hn, Place.isTimed]
  · simp [hk, ht]

/-- The staged slot leaves the staging buffer. -/
theorem unstage (h : Places place queued staged sending timed) (hn : place n = some .staged) :
    Places (Function.update place n none) queued none sending timed := by
  obtain ⟨hqn, htn, hq, hs, he, ht⟩ := h
  have hst : staged = some n := (hs n).mpr hn
  refine ⟨hqn, htn, fun k => ?_, fun k => ?_, fun k => ?_, fun k => ?_⟩ <;> by_cases hk : k = n
  · subst hk; simp [hq, hn]
  · simp [hk, hq]
  · simp [hk]
  · simpa [hk, hst, Ne.symm hk] using hs k
  · subst hk; simp [he, hn]
  · simp [hk, he]
  · subst hk; simp [ht, hn, Place.isTimed]
  · simp [hk, ht]

/-- The slot being sent leaves the sending buffer. -/
theorem unsend (h : Places place queued staged sending timed) (hn : place n = some .sending) :
    Places (Function.update place n none) queued staged none timed := by
  obtain ⟨hqn, htn, hq, hs, he, ht⟩ := h
  have hst : sending = some n := (he n).mpr hn
  refine ⟨hqn, htn, fun k => ?_, fun k => ?_, fun k => ?_, fun k => ?_⟩ <;> by_cases hk : k = n
  · subst hk; simp [hq, hn]
  · simp [hk, hq]
  · subst hk; simp [hs, hn]
  · simp [hk, hs]
  · simp [hk]
  · simpa [hk, hst, Ne.symm hk] using he k
  · subst hk; simp [ht, hn, Place.isTimed]
  · simp [hk, ht]

/-- A slot leaves the timed list. -/
theorem untime (h : Places place queued staged sending timed) (hn : place n = some p) (hp : p.isTimed = true) :
    Places (Function.update place n none) queued staged sending (timed.erase n) := by
  obtain ⟨hqn, htn, hq, hs, he, ht⟩ := h
  refine ⟨hqn, htn.erase n, fun k => ?_, fun k => ?_, fun k => ?_, fun k => ?_⟩ <;> by_cases hk : k = n
  · subst hk; simp [hq, hn]; rintro rfl; simp [Place.isTimed] at hp
  · simp [hk, hq]
  · subst hk; simp [hs, hn]; rintro rfl; simp [Place.isTimed] at hp
  · simp [hk, hs]
  · subst hk; simp [he, hn]; rintro rfl; simp [Place.isTimed] at hp
  · simp [hk, he]
  · subst hk; simp [htn.mem_erase_iff]
  · simp [hk, htn.mem_erase_iff, ht]

/-- A slot that is in no place joins a queue. -/
theorem enqueue (h : Places place queued staged sending timed) (hn : place n = none) (hl : l.Perm (n :: queued)) :
    Places (Function.update place n (some .queued)) l staged sending timed := by
  obtain ⟨hqn, htn, hq, hs, he, ht⟩ := h
  refine ⟨hl.nodup_iff.mpr (List.nodup_cons.mpr ⟨by simp [hq, hn], hqn⟩), htn, fun k => ?_, fun k => ?_, fun k => ?_,
    fun k => ?_⟩ <;> by_cases hk : k = n
  · subst hk; simp [hl.mem_iff]
  · simp [hk, hl.mem_iff, hq]
  · subst hk; simp [hs, hn]
  · simp [hk, hs]
  · subst hk; simp [he, hn]
  · simp [hk, he]
  · subst hk; simp [ht, hn, Place.isTimed]
  · simp [hk, ht]

/-- A slot that is in no place joins the empty staging buffer. -/
theorem stage (h : Places place queued none sending timed) (hn : place n = none) :
    Places (Function.update place n (some .staged)) queued (some n) sending timed := by
  obtain ⟨hqn, htn, hq, hs, he, ht⟩ := h
  refine ⟨hqn, htn, fun k => ?_, fun k => ?_, fun k => ?_, fun k => ?_⟩ <;> by_cases hk : k = n
  · subst hk; simp [hq, hn]
  · simp [hk, hq]
  · simp [hk]
  · simpa [hk, Ne.symm hk] using hs k
  · subst hk; simp [he, hn]
  · simp [hk, he]
  · subst hk; simp [ht, hn, Place.isTimed]
  · simp [hk, ht]

/-- A slot that is in no place joins the empty sending buffer. -/
theorem send (h : Places place queued staged none timed) (hn : place n = none) :
    Places (Function.update place n (some .sending)) queued staged (some n) timed := by
  obtain ⟨hqn, htn, hq, hs, he, ht⟩ := h
  refine ⟨hqn, htn, fun k => ?_, fun k => ?_, fun k => ?_, fun k => ?_⟩ <;> by_cases hk : k = n
  · subst hk; simp [hq, hn]
  · simp [hk, hq]
  · subst hk; simp [hs, hn]
  · simp [hk, hs]
  · simp [hk]
  · simpa [hk, Ne.symm hk] using he k
  · subst hk; simp [ht, hn, Place.isTimed]
  · simp [hk, ht]

/-- A slot that is in no place joins the timed list. -/
theorem time (h : Places place queued staged sending timed) (hn : place n = none) (hl : l.Perm (n :: timed))
    (hp : p.isTimed = true) : Places (Function.update place n (some p)) queued staged sending l := by
  obtain ⟨hqn, htn, hq, hs, he, ht⟩ := h
  refine ⟨hqn, hl.nodup_iff.mpr (List.nodup_cons.mpr ⟨by simp [ht, hn], htn⟩), fun k => ?_, fun k => ?_, fun k => ?_,
    fun k => ?_⟩ <;> by_cases hk : k = n
  · subst hk; simp [hq, hn]; rintro rfl; simp [Place.isTimed] at hp
  · simp [hk, hq]
  · subst hk; simp [hs, hn]; rintro rfl; simp [Place.isTimed] at hp
  · simp [hk, hs]
  · subst hk; simp [he, hn]; rintro rfl; simp [Place.isTimed] at hp
  · simp [hk, he]
  · subst hk; simp [hl.mem_iff, hp]
  · simp [hk, hl.mem_iff, ht]

end Places

/-! ## Owners -/

/-- The sum of the charges reserved for the slots of a list (R62). -/
def chargesOf (message : Nat → Option Message) (l : List Nat) : Nat :=
  (l.map fun n => (message n).elim 0 (·.charge)).sum

theorem chargesOf_congr {message message' : Nat → Option Message} {l : List Nat}
    (h : ∀ n ∈ l, (message' n).elim 0 (·.charge) = (message n).elim 0 (·.charge)) :
    chargesOf message' l = chargesOf message l := by
  unfold chargesOf; rw [List.map_congr_left h]

theorem chargesOf_erase {message : Nat → Option Message} {l : List Nat} {n : Nat} {m : Message} (hn : n ∈ l)
    (hm : message n = some m) : chargesOf message l = m.charge + chargesOf message (l.erase n) := by
  simpa [chargesOf, hm] using (List.sum_map_erase (fun n => (message n).elim 0 (·.charge)) hn).symm

/-- Records and slots belong together: the live list of a record holds, once, exactly the slots it owns, its held list
those that are HELD, at most 4; no two of its slots share a tag; its pending is the sum of their charges (R38, R62). -/
structure Owners (record : Nat → Option Record) (message : Nat → Option Message) : Prop where
  owned : ∀ {n m}, message n = some m → (record m.owner).isSome
  live_iff : ∀ {i r}, record i = some r → ∀ n, n ∈ r.live ↔ ∃ m, message n = some m ∧ m.owner = i
  held_iff : ∀ {i r}, record i = some r → ∀ n, n ∈ r.held ↔ ∃ m, message n = some m ∧ m.owner = i ∧ m.isHeld = true
  live_nodup : ∀ {i r}, record i = some r → r.live.Nodup
  held_nodup : ∀ {i r}, record i = some r → r.held.Nodup
  held_length : ∀ {i r}, record i = some r → r.held.length ≤ Config.heldLimit
  tags : ∀ {n k m m'}, message n = some m → message k = some m' → m.owner = m'.owner → m.tag = m'.tag → n = k
  pending : ∀ {i r}, record i = some r → r.pending = chargesOf message r.live

/-- The fields of a record that the store reads, its place in the indexes apart, are those of another. -/
structure Record.SameSlots (r r' : Record) : Prop where
  live : r.live = r'.live
  held : r.held = r'.held
  pending : r.pending = r'.pending

/-- The fields of a message that its owner reads are those of another. -/
structure Message.SameOwned (m m' : Message) : Prop where
  owner : m.owner = m'.owner
  tag : m.tag = m'.tag
  charge : m.charge = m'.charge
  isHeld : m.isHeld = m'.isHeld

/-- A function read after an update. -/
theorem update_eq_some_iff {β : Type} {f : Nat → Option β} {i j : Nat} {v x : β} :
    Function.update f i (some v) j = some x ↔ (j = i ∧ x = v) ∨ (j ≠ i ∧ f j = some x) := by
  by_cases hj : j = i
  · subst hj; simp [eq_comm]
  · simp [hj]

theorem update_none_eq_some_iff {β : Type} {f : Nat → Option β} {i j : Nat} {x : β} :
    Function.update f i none j = some x ↔ j ≠ i ∧ f j = some x := by
  by_cases hj : j = i
  · subst hj; simp
  · simp [hj]

namespace Owners
variable {record : Nat → Option Record} {message : Nat → Option Message} {i n : Nat} {r r' : Record} {m m' : Message}

/-- A change of a record beside its lists and its pending. -/
theorem changeRecord (h : Owners record message) (hr : record i = some r) (hs : r'.SameSlots r) :
    Owners (Function.update record i (some r')) message := by
  have hread : ∀ {j x}, Function.update record i (some r') j = some x → ∃ y, record j = some y ∧ x.SameSlots y := by
    intro j x hx
    rcases update_eq_some_iff.mp hx with ⟨rfl, rfl⟩ | ⟨-, hx⟩
    · exact ⟨r, hr, hs⟩
    · exact ⟨x, hx, rfl, rfl, rfl⟩
  constructor
  case owned =>
    intro n m hm
    by_cases ho : m.owner = i
    · simp [ho]
    · simpa [ho] using h.owned hm
  case tags => exact h.tags
  all_goals
    intro j x hx
    obtain ⟨y, hy, hl, hh, hp⟩ := hread hx
  case live_iff => rw [hl]; exact h.live_iff hy
  case held_iff => rw [hh]; exact h.held_iff hy
  case live_nodup => rw [hl]; exact h.live_nodup hy
  case held_nodup => rw [hh]; exact h.held_nodup hy
  case held_length => rw [hh]; exact h.held_length hy
  case pending => rw [hp, hl]; exact h.pending hy

/-- A change of a message beside what its owner reads. -/
theorem changeMessage (h : Owners record message) (hm : message n = some m) (hs : m'.SameOwned m) :
    Owners record (Function.update message n (some m')) := by
  have hread : ∀ {k x}, Function.update message n (some m') k = some x → ∃ y, message k = some y ∧ x.SameOwned y := by
    intro k x hx
    rcases update_eq_some_iff.mp hx with ⟨rfl, rfl⟩ | ⟨-, hx⟩
    · exact ⟨m, hm, hs⟩
    · exact ⟨x, hx, rfl, rfl, rfl, rfl⟩
  constructor
  case owned =>
    intro k x hx
    obtain ⟨y, hy, ho, -⟩ := hread hx
    rw [ho]; exact h.owned hy
  case live_iff =>
    intro j x hx k
    rw [h.live_iff hx]
    by_cases hk : k = n
    · subst hk; simp [hm, hs.owner]
    · simp [hk]
  case held_iff =>
    intro j x hx k
    rw [h.held_iff hx]
    by_cases hk : k = n
    · subst hk; simp [hm, hs.owner, hs.isHeld]
    · simp [hk]
  case live_nodup => exact h.live_nodup
  case held_nodup => exact h.held_nodup
  case held_length => exact h.held_length
  case tags =>
    intro k k' x x' hx hx' ho ht
    obtain ⟨y, hy, hyo, hyt, -⟩ := hread hx
    obtain ⟨y', hy', hyo', hyt', -⟩ := hread hx'
    exact h.tags hy hy' (by rw [← hyo, ← hyo', ho]) (by rw [← hyt, ← hyt', ht])
  case pending =>
    intro j x hx
    rw [h.pending hx]
    refine (chargesOf_congr fun k _ => ?_).symm
    by_cases hk : k = n
    · subst hk; simp [hm, hs.charge]
    · simp [hk]

/-- A slot is freed out of its owner's lists, and its charge leaves pending (R41, R42). -/
theorem free (h : Owners record message) (hm : message n = some m) (hr : record m.owner = some r)
    (hl : r'.live = r.live.erase n) (hh : r'.held = r.held.erase n) (hp : r'.pending = r.pending - m.charge) :
    Owners (Function.update record m.owner (some r')) (Function.update message n none) := by
  have hn : n ∈ r.live := (h.live_iff hr n).mpr ⟨m, hm, rfl⟩
  have hother : ∀ {j x}, j ≠ m.owner → record j = some x → n ∉ x.live := by
    intro j x hj hx hmem
    obtain ⟨y, hy, ho⟩ := (h.live_iff hx n).mp hmem
    rw [hm] at hy; cases hy; exact hj ho.symm
  constructor
  case owned =>
    intro k x hx
    obtain ⟨-, hx⟩ := update_none_eq_some_iff.mp hx
    by_cases ho : x.owner = m.owner
    · simp [ho]
    · simpa [ho] using h.owned hx
  case tags =>
    intro k k' x x' hx hx'
    exact h.tags (update_none_eq_some_iff.mp hx).2 (update_none_eq_some_iff.mp hx').2
  all_goals
    intro j x hx
    rcases update_eq_some_iff.mp hx with ⟨rfl, rfl⟩ | ⟨hj, hx⟩
  case live_iff.inl =>
    intro k
    simp only [hl, (h.live_nodup hr).mem_erase_iff, h.live_iff hr, update_none_eq_some_iff]
    exact ⟨fun ⟨hk, y, hy, ho⟩ => ⟨y, ⟨hk, hy⟩, ho⟩, fun ⟨y, ⟨hk, hy⟩, ho⟩ => ⟨hk, y, hy, ho⟩⟩
  case live_iff.inr =>
    intro k
    rw [h.live_iff hx]
    by_cases hk : k = n
    · subst hk; simp [hm, Ne.symm hj]
    · simp [hk]
  case held_iff.inl =>
    intro k
    simp only [hh, (h.held_nodup hr).mem_erase_iff, h.held_iff hr, update_none_eq_some_iff]
    exact ⟨fun ⟨hk, y, hy, ho⟩ => ⟨y, ⟨hk, hy⟩, ho⟩, fun ⟨y, ⟨hk, hy⟩, ho⟩ => ⟨hk, y, hy, ho⟩⟩
  case held_iff.inr =>
    intro k
    rw [h.held_iff hx]
    by_cases hk : k = n
    · subst hk; simp [hm, Ne.symm hj]
    · simp [hk]
  case live_nodup.inl => rw [hl]; exact (h.live_nodup hr).erase n
  case live_nodup.inr => exact h.live_nodup hx
  case held_nodup.inl => rw [hh]; exact (h.held_nodup hr).erase n
  case held_nodup.inr => exact h.held_nodup hx
  case held_length.inl => rw [hh]; exact List.length_erase_le.trans (h.held_length hr)
  case held_length.inr => exact h.held_length hx
  case pending.inl =>
    rw [hp, hl, h.pending hr, chargesOf_erase hn hm, Nat.add_sub_cancel_left]
    refine (chargesOf_congr fun k hk => ?_).symm
    rw [Function.update_of_ne ((h.live_nodup hr).mem_erase_iff.mp hk).1]
  case pending.inr =>
    rw [h.pending hx]
    refine (chargesOf_congr fun k hk => ?_).symm
    rw [Function.update_of_ne (ne_of_mem_of_not_mem hk (hother hj hx))]

/-- A free slot is given to a record, with a tag that none of its slots has and its charge reserved (R34, R35, R62). -/
theorem allocate (h : Owners record message) (hn : message n = none) (hr : record i = some r) (ho : m.owner = i)
    (hheld : m.isHeld = false) (ht : ∀ k x, message k = some x → x.owner = i → x.tag ≠ m.tag)
    (hl : r'.live = r.live ++ [n]) (hh : r'.held = r.held) (hp : r'.pending = r.pending + m.charge) :
    Owners (Function.update record i (some r')) (Function.update message n (some m)) := by
  have hnot : ∀ {j x}, record j = some x → n ∉ x.live := by
    intro j x hx hmem
    obtain ⟨y, hy, -⟩ := (h.live_iff hx n).mp hmem
    rw [hn] at hy; cases hy
  constructor
  case owned =>
    intro k x hx
    rcases update_eq_some_iff.mp hx with ⟨-, rfl⟩ | ⟨-, hx⟩
    · simp [ho]
    · by_cases hx' : x.owner = i
      · simp [hx']
      · simpa [hx'] using h.owned hx
  case tags =>
    intro k k' x x' hx hx' hox htx
    rcases update_eq_some_iff.mp hx with ⟨rfl, rfl⟩ | ⟨-, hk⟩ <;>
      rcases update_eq_some_iff.mp hx' with ⟨rfl, rfl⟩ | ⟨-, hk'⟩
    · rfl
    · exact absurd htx.symm (ht k' x' hk' (by rw [← hox, ho]))
    · exact absurd htx (ht k x hk (by rw [hox, ho]))
    · exact h.tags hk hk' hox htx
  all_goals
    intro j x hx
    rcases update_eq_some_iff.mp hx with ⟨rfl, rfl⟩ | ⟨hj, hx⟩
  case live_iff.inl =>
    intro k
    rw [hl, List.mem_append, h.live_iff hr]
    by_cases hk : k = n
    · subst hk; simp [ho]
    · simp [hk]
  case live_iff.inr =>
    intro k
    rw [h.live_iff hx]
    by_cases hk : k = n
    · subst hk; simp [hn, ho, Ne.symm hj]
    · simp [hk]
  case held_iff.inl =>
    intro k
    rw [hh, h.held_iff hr]
    by_cases hk : k = n
    · subst hk; simp [hn, hheld]
    · simp [hk]
  case held_iff.inr =>
    intro k
    rw [h.held_iff hx]
    by_cases hk : k = n
    · subst hk; simp [hn, hheld]
    · simp [hk]
  case live_nodup.inl =>
    rw [hl]
    exact List.nodup_append'.mpr ⟨h.live_nodup hr, List.nodup_singleton n, by simpa using hnot hr⟩
  case live_nodup.inr => exact h.live_nodup hx
  case held_nodup.inl => rw [hh]; exact h.held_nodup hr
  case held_nodup.inr => exact h.held_nodup hx
  case held_length.inl => rw [hh]; exact h.held_length hr
  case held_length.inr => exact h.held_length hx
  case pending.inl =>
    have hsame : chargesOf (Function.update message n (some m)) r.live = chargesOf message r.live :=
      chargesOf_congr fun k hk => by rw [Function.update_of_ne (ne_of_mem_of_not_mem hk (hnot hr))]
    rw [hp, hl, h.pending hr, ← hsame]
    simp [chargesOf]
  case pending.inr =>
    rw [h.pending hx]
    refine (chargesOf_congr fun k hk => ?_).symm
    rw [Function.update_of_ne (ne_of_mem_of_not_mem hk (hnot hx))]

/-- A slot that was not HELD becomes HELD, at the tail of its owner's held list (R146). -/
theorem hold (h : Owners record message) (hm : message n = some m) (hnh : m.isHeld = false)
    (hr : record m.owner = some r) (hlen : r.held.length < Config.heldLimit)
    (hl : r'.live = r.live) (hh : r'.held = r.held ++ [n]) (hp : r'.pending = r.pending)
    (ho : m'.owner = m.owner) (ht : m'.tag = m.tag) (hc : m'.charge = m.charge) (hh' : m'.isHeld = true) :
    Owners (Function.update record m.owner (some r')) (Function.update message n (some m')) := by
  have hread : ∀ {k x}, Function.update message n (some m') k = some x →
      ∃ y, message k = some y ∧ x.owner = y.owner ∧ x.tag = y.tag := by
    intro k x hx
    rcases update_eq_some_iff.mp hx with ⟨rfl, rfl⟩ | ⟨-, hx⟩
    · exact ⟨m, hm, ho, ht⟩
    · exact ⟨x, hx, rfl, rfl⟩
  have hcharges : ∀ l, chargesOf (Function.update message n (some m')) l = chargesOf message l := by
    refine fun l => chargesOf_congr fun k _ => ?_
    by_cases hk : k = n
    · subst hk; simp [hm, hc]
    · simp [hk]
  have hlive : ∀ j k, (∃ x, Function.update message n (some m') k = some x ∧ x.owner = j) ↔
      ∃ x, message k = some x ∧ x.owner = j := by
    intro j k
    by_cases hk : k = n
    · subst hk; simp [hm, ho]
    · simp [hk]
  have hnot : n ∉ r.held := by simp [h.held_iff hr, hm, hnh]
  constructor
  case owned =>
    intro k x hx
    obtain ⟨y, hy, hxo, -⟩ := hread hx
    by_cases hox : x.owner = m.owner
    · simp [hox]
    · rw [Function.update_of_ne hox, hxo]; exact h.owned hy
  case tags =>
    intro k k' x x' hx hx' hox htx
    obtain ⟨y, hy, hyo, hyt⟩ := hread hx
    obtain ⟨y', hy', hyo', hyt'⟩ := hread hx'
    exact h.tags hy hy' (by rw [← hyo, ← hyo', hox]) (by rw [← hyt, ← hyt', htx])
  all_goals
    intro j x hx
    rcases update_eq_some_iff.mp hx with ⟨rfl, rfl⟩ | ⟨hj, hx⟩
  case live_iff.inl => intro k; rw [hl, h.live_iff hr, hlive]
  case live_iff.inr => intro k; rw [h.live_iff hx, hlive]
  case held_iff.inl =>
    intro k
    rw [hh, List.mem_append, h.held_iff hr]
    by_cases hk : k = n
    · subst hk; simp [ho, hh']
    · simp [hk]
  case held_iff.inr =>
    intro k
    rw [h.held_iff hx]
    by_cases hk : k = n
    · subst hk; simp [hm, ho, Ne.symm hj]
    · simp [hk]
  case live_nodup.inl => rw [hl]; exact h.live_nodup hr
  case live_nodup.inr => exact h.live_nodup hx
  case held_nodup.inl =>
    rw [hh]
    exact List.nodup_append'.mpr ⟨h.held_nodup hr, List.nodup_singleton n, by simpa using hnot⟩
  case held_nodup.inr => exact h.held_nodup hx
  case held_length.inl => rw [hh]; simp; omega
  case held_length.inr => exact h.held_length hx
  case pending.inl => rw [hp, hl, hcharges, h.pending hr]
  case pending.inr => rw [hcharges, h.pending hx]

/-- Every held slot of a record leaves its held list and is HELD no more (R139). -/
theorem release (h : Owners record message) (hr : record i = some r) (hl : r'.live = r.live) (hh : r'.held = [])
    (hp : r'.pending = r.pending) {message' : Nat → Option Message} {f : Message → Message}
    (hm : ∀ n, message' n = if n ∈ r.held then (message n).map f else message n)
    (hf : ∀ m, (f m).owner = m.owner ∧ (f m).tag = m.tag ∧ (f m).charge = m.charge ∧ (f m).isHeld = false) :
    Owners (Function.update record i (some r')) message' := by
  have hread : ∀ {k x}, message' k = some x → ∃ y, message k = some y ∧ x.owner = y.owner ∧ x.tag = y.tag := by
    intro k x hx
    rw [hm] at hx
    split at hx
    · obtain ⟨y, hy, rfl⟩ := Option.map_eq_some_iff.mp hx
      exact ⟨y, hy, (hf y).1, (hf y).2.1⟩
    · exact ⟨x, hx, rfl, rfl⟩
  have hlive : ∀ j k, (∃ x, message' k = some x ∧ x.owner = j) ↔ ∃ x, message k = some x ∧ x.owner = j := by
    intro j k
    rw [hm]
    split
    · cases message k <;> simp [hf]
    · rfl
  have hcharges : ∀ l, chargesOf message' l = chargesOf message l := by
    refine fun l => chargesOf_congr fun k _ => ?_
    rw [hm]
    split
    · cases message k <;> simp [hf]
    · rfl
  constructor
  case owned =>
    intro k x hx
    obtain ⟨y, hy, hxo, -⟩ := hread hx
    by_cases hox : x.owner = i
    · simp [hox]
    · rw [Function.update_of_ne hox, hxo]; exact h.owned hy
  case tags =>
    intro k k' x x' hx hx' hox htx
    obtain ⟨y, hy, hyo, hyt⟩ := hread hx
    obtain ⟨y', hy', hyo', hyt'⟩ := hread hx'
    exact h.tags hy hy' (by rw [← hyo, ← hyo', hox]) (by rw [← hyt, ← hyt', htx])
  all_goals
    intro j x hx
    rcases update_eq_some_iff.mp hx with ⟨rfl, rfl⟩ | ⟨hj, hx⟩
  case live_iff.inl => intro k; rw [hl, h.live_iff hr, hlive]
  case live_iff.inr => intro k; rw [h.live_iff hx, hlive]
  case held_iff.inl =>
    intro k
    simp only [hh, List.not_mem_nil, false_iff, not_exists, not_and]
    intro x hx' ho
    rw [hm] at hx'
    split at hx'
    next => obtain ⟨y, -, rfl⟩ := Option.map_eq_some_iff.mp hx'; simp [hf]
    next hk => intro hheld; exact hk ((h.held_iff hr k).mpr ⟨x, hx', ho, hheld⟩)
  case held_iff.inr =>
    intro k
    rw [h.held_iff hx, hm]
    split
    next hk =>
      obtain ⟨y, hy, ho, -⟩ := (h.held_iff hr k).mp hk
      simp [hy, hf, ho, Ne.symm hj]
    next => rfl
  case live_nodup.inl => rw [hl]; exact h.live_nodup hr
  case live_nodup.inr => exact h.live_nodup hx
  case held_nodup.inl => rw [hh]; exact List.nodup_nil
  case held_nodup.inr => exact h.held_nodup hx
  case held_length.inl => rw [hh]; exact Nat.zero_le _
  case held_length.inr => exact h.held_length hx
  case pending.inl => rw [hp, hl, hcharges, h.pending hr]
  case pending.inr => rw [hcharges, h.pending hx]

/-- A new record owns nothing (R14). -/
theorem addRecord (h : Owners record message) (hr : record i = none) (hl : r'.live = []) (hh : r'.held = [])
    (hp : r'.pending = 0) : Owners (Function.update record i (some r')) message := by
  have hnone : ∀ n m, message n = some m → m.owner ≠ i := fun n m hm ho => by
    have := h.owned hm; simp [ho, hr] at this
  constructor
  case owned => intro n m hm; rw [Function.update_of_ne (hnone n m hm)]; exact h.owned hm
  case tags => exact h.tags
  all_goals
    intro j x hx
    rcases update_eq_some_iff.mp hx with ⟨rfl, rfl⟩ | ⟨hj, hx⟩
  case live_iff.inl => intro k; simpa [hl] using hnone k
  case live_iff.inr => exact h.live_iff hx
  case held_iff.inl =>
    intro k
    simp only [hh, List.not_mem_nil, false_iff, not_exists, not_and]
    exact fun m hm ho => absurd ho (hnone k m hm)
  case held_iff.inr => exact h.held_iff hx
  case live_nodup.inl => rw [hl]; exact List.nodup_nil
  case live_nodup.inr => exact h.live_nodup hx
  case held_nodup.inl => rw [hh]; exact List.nodup_nil
  case held_nodup.inr => exact h.held_nodup hx
  case held_length.inl => rw [hh]; exact Nat.zero_le _
  case held_length.inr => exact h.held_length hx
  case pending.inl => rw [hp, hl]; rfl
  case pending.inr => exact h.pending hx

/-- A record that owns nothing leaves the table (R24). -/
theorem dropRecord (h : Owners record message) (hr : record i = some r) (hl : r.live = []) :
    Owners (Function.update record i none) message := by
  constructor
  case owned =>
    intro n m hm
    by_cases ho : m.owner = i
    · have := (h.live_iff hr n).mpr ⟨m, hm, ho⟩
      simp [hl] at this
    · simpa [ho] using h.owned hm
  case tags => exact h.tags
  case live_iff => intro j x hx; exact h.live_iff (update_none_eq_some_iff.mp hx).2
  case held_iff => intro j x hx; exact h.held_iff (update_none_eq_some_iff.mp hx).2
  case live_nodup => intro j x hx; exact h.live_nodup (update_none_eq_some_iff.mp hx).2
  case held_nodup => intro j x hx; exact h.held_nodup (update_none_eq_some_iff.mp hx).2
  case held_length => intro j x hx; exact h.held_length (update_none_eq_some_iff.mp hx).2
  case pending => intro j x hx; exact h.pending (update_none_eq_some_iff.mp hx).2

/-- Nothing is owned where there are no slots. -/
theorem empty : Owners (fun _ => none) fun _ => none := by
  constructor <;> intros <;> simp_all

end Owners

/-! ## Closing entries -/

/-- The freeing of the record is due: RETIRING with an empty live list (R24). -/
def Record.Due (r : Record) : Prop := r.state = .retiring ∧ r.live = []

/-- The closing entries that wait: one for each record whose freeing is due, which carries the mark, except for the
record that the event in hand still looks at (R24). -/
structure Closings (record : Nat → Option Record) (waiting : List Nat) (loose : Option Nat) : Prop where
  nodup : waiting.Nodup
  marked : ∀ {i}, i ∈ waiting → ∃ r, record i = some r ∧ r.closing = true
  due : ∀ {i r}, record i = some r → r.closing = true → r.Due
  waits : ∀ {i r}, record i = some r → r.Due → loose ≠ some i → i ∈ waiting
  loose_out : ∀ {i}, loose = some i → i ∉ waiting

namespace Closings
variable {record : Nat → Option Record} {waiting l : List Nat} {loose : Option Nat} {i : Nat} {r r' : Record}

/-- A change of a record that keeps its mark and whether its freeing is due. -/
theorem change (h : Closings record waiting loose) (hr : record i = some r) (hc : r'.closing = r.closing)
    (hd : r'.Due ↔ r.Due) : Closings (Function.update record i (some r')) waiting loose := by
  refine ⟨h.nodup, fun {j} hj => ?_, fun {j x} hx hxc => ?_, fun {j x} hx hxd hl => ?_, h.loose_out⟩
  · obtain ⟨x, hx, hxc⟩ := h.marked hj
    by_cases hji : j = i
    · subst hji; rw [hr] at hx; cases hx; exact ⟨r', by simp, hc.trans hxc⟩
    · exact ⟨x, by simpa [hji] using hx, hxc⟩
  · rcases update_eq_some_iff.mp hx with ⟨rfl, rfl⟩ | ⟨-, hx⟩
    · exact hd.mpr (h.due hr (hc ▸ hxc))
    · exact h.due hx hxc
  · rcases update_eq_some_iff.mp hx with ⟨rfl, rfl⟩ | ⟨-, hx⟩
    · exact h.waits hr (hd.mp hxd) hl
    · exact h.waits hx hxd hl

/-- A record whose freeing is not due may be changed, to one without the mark, and is then looked at. -/
theorem loosen (h : Closings record waiting none) (hr : record i = some r) (hnd : ¬ r.Due)
    (hc : r'.closing = r.closing) : Closings (Function.update record i (some r')) waiting (some i) := by
  have hrc : r.closing ≠ true := fun e => hnd (h.due hr e)
  have hnot : i ∉ waiting := fun hi => by
    obtain ⟨x, hx, hxc⟩ := h.marked hi
    rw [hr] at hx; cases hx; exact hrc hxc
  refine ⟨h.nodup, fun {j} hj => ?_, fun {j x} hx hxc => ?_, fun {j x} hx hxd hl => ?_, fun {j} hj => ?_⟩
  · rw [Function.update_of_ne (ne_of_mem_of_not_mem hj hnot)]; exact h.marked hj
  · rcases update_eq_some_iff.mp hx with ⟨rfl, rfl⟩ | ⟨-, hx⟩
    · exact absurd (hc ▸ hxc) hrc
    · exact h.due hx hxc
  · rcases update_eq_some_iff.mp hx with ⟨rfl, rfl⟩ | ⟨-, hx⟩
    · exact absurd rfl hl
    · exact h.waits hx hxd (by simp)
  · cases hj; exact hnot

/-- The record looked at may be changed while it is looked at. -/
theorem changeLoose (h : Closings record waiting (some i)) (hr : record i = some r) (hd : r'.closing = true → r'.Due) :
    Closings (Function.update record i (some r')) waiting (some i) := by
  have hnot := h.loose_out rfl
  refine ⟨h.nodup, fun {j} hj => ?_, fun {j x} hx hxc => ?_, fun {j x} hx hxd hl => ?_, h.loose_out⟩
  · rw [Function.update_of_ne (ne_of_mem_of_not_mem hj hnot)]; exact h.marked hj
  · rcases update_eq_some_iff.mp hx with ⟨rfl, rfl⟩ | ⟨-, hx⟩
    · exact hd hxc
    · exact h.due hx hxc
  · rcases update_eq_some_iff.mp hx with ⟨rfl, rfl⟩ | ⟨-, hx⟩
    · exact absurd rfl hl
    · exact h.waits hx hxd hl

/-- A record whose freeing is not due needs no look. -/
theorem tighten (h : Closings record waiting (some i)) (hd : ∀ r, record i = some r → ¬ r.Due) :
    Closings record waiting none := by
  refine ⟨h.nodup, h.marked, h.due, fun {j x} hx hxd _ => h.waits hx hxd ?_, by simp⟩
  rintro e
  cases e
  exact hd x hx hxd

/-- The closing entry of a marked record begins to wait. -/
theorem wait (h : Closings record waiting (some i)) (hr : record i = some r) (hc : r.closing = true)
    (hl : l.Perm (i :: waiting)) : Closings record l none := by
  refine ⟨hl.nodup_iff.mpr (List.nodup_cons.mpr ⟨h.loose_out rfl, h.nodup⟩), fun {j} hj => ?_, h.due,
    fun {j x} hx hxd _ => ?_, by simp⟩
  · rcases List.mem_cons.mp (hl.mem_iff.mp hj) with rfl | hj
    · exact ⟨r, hr, hc⟩
    · exact h.marked hj
  · rw [hl.mem_iff, List.mem_cons]
    by_cases hj : j = i
    · exact .inl hj
    · exact .inr (h.waits hx hxd (by simpa using Ne.symm hj))

/-- A closing entry that waited has its turn. -/
theorem turn (h : Closings record (i :: l) none) : Closings record l (some i) := by
  obtain ⟨hi, hl⟩ := List.nodup_cons.mp h.nodup
  refine ⟨hl, fun hj => h.marked (List.mem_cons_of_mem _ hj), h.due, fun {j x} hx hxd hj => ?_, ?_⟩
  · exact (List.mem_cons.mp (h.waits hx hxd (by simp))).resolve_left fun e => hj (by rw [e])
  · rintro j ⟨⟩; exact hi

/-- The record looked at leaves the table. -/
theorem dropRecord (h : Closings record waiting (some i)) : Closings (Function.update record i none) waiting none := by
  refine ⟨h.nodup, fun {j} hj => ?_, fun {j x} hx => h.due (update_none_eq_some_iff.mp hx).2, fun {j x} hx hxd _ => ?_,
    by simp⟩
  · rw [Function.update_of_ne (ne_of_mem_of_not_mem hj (h.loose_out rfl))]; exact h.marked hj
  · obtain ⟨hj, hx⟩ := update_none_eq_some_iff.mp hx
    exact h.waits hx hxd (by simpa using Ne.symm hj)

/-- A new record whose freeing is not due. -/
theorem addRecord (h : Closings record waiting none) (hr : record i = none) (hc : r'.closing = false)
    (hd : ¬ r'.Due) : Closings (Function.update record i (some r')) waiting none := by
  refine ⟨h.nodup, fun {j} hj => ?_, fun {j x} hx hxc => ?_, fun {j x} hx hxd hl => ?_, by simp⟩
  · obtain ⟨x, hx, hxc⟩ := h.marked hj
    have hji : j ≠ i := by rintro rfl; rw [hr] at hx; cases hx
    exact ⟨x, by rw [Function.update_of_ne hji]; exact hx, hxc⟩
  · rcases update_eq_some_iff.mp hx with ⟨rfl, rfl⟩ | ⟨-, hx⟩
    · simp [hc] at hxc
    · exact h.due hx hxc
  · rcases update_eq_some_iff.mp hx with ⟨rfl, rfl⟩ | ⟨-, hx⟩
    · exact absurd hxd hd
    · exact h.waits hx hxd (by simp)

end Closings

end Sys2Proof.Machine
end


section
namespace Sys2Proof.Machine
open Sys2Proof

/-! ## Tables as functions -/

section
variable {α : Type} {m : Sparse α} {i : Nat} {v : α}

theorem Sparse.mem_of_look (h : m.look i = some v) : (i, v) ∈ m := by
  induction m with
  | nil => simp [Sparse.look] at h
  | cons p m ih =>
    obtain ⟨k, w⟩ := p
    by_cases hk : k = i
    · subst hk; simp only [Sparse.look, if_true, Option.some.injEq] at h; simp [h]
    · simp only [Sparse.look, hk, if_false] at h; exact List.mem_cons_of_mem _ (ih h)

/-- In a table with rising keys an entry is the value of its key. -/
theorem Sparse.look_iff_mem (hm : m.rising = true) : m.look i = some v ↔ (i, v) ∈ m := by
  refine ⟨Sparse.mem_of_look, fun h => ?_⟩
  induction m with
  | nil => cases h
  | cons p m ih =>
    obtain ⟨k, w⟩ := p
    simp only [Sparse.rising, Bool.and_eq_true, List.all_eq_true, decide_eq_true_eq] at hm
    rcases List.mem_cons.mp h with h | h
    · cases h; simp [Sparse.look]
    · have hk : k ≠ i := Nat.ne_of_lt (hm.1 _ h)
      simpa [Sparse.look, hk] using ih hm.2 h

theorem Sparse.keys_nodup (hm : m.rising = true) : (m.map (·.1)).Nodup := by
  induction m with
  | nil => exact List.nodup_nil
  | cons p m ih =>
    simp only [Sparse.rising, Bool.and_eq_true, List.all_eq_true, decide_eq_true_eq] at hm
    refine List.nodup_cons.mpr ⟨fun h => ?_, ih hm.2⟩
    obtain ⟨q, hq, he⟩ := List.mem_map.mp h
    exact absurd (hm.1 q hq) (by simp [he])

end

theorem State.record?_putRecord_fun (s : State) (i : Nat) (r : Record) :
    (s.putRecord i r).record? = Function.update s.record? i (some r) := by
  funext j
  by_cases h : j = i
  · subst h; simp
  · simp [h]

theorem State.updateRecord_eq {s : State} {i : Nat} {r : Record} (h : s.record? i = some r) (f : Record → Record) :
    s.updateRecord i f = s.putRecord i (f r) := by simp [State.updateRecord, h]

theorem State.message?_putSlot_fun (s : State) (n : Nat) (v : Slot) :
    (s.putSlot n v).message? = Function.update s.message? n v.message := by
  funext k
  by_cases h : k = n
  · subst h; simp [State.message?]
  · simp [State.message?, h]

theorem State.updateMessage_eq {s : State} {n : Nat} {m : Message} (h : s.message? n = some m) (f : Message → Message) :
    s.updateMessage n f = s.putSlot n { s.slot n with message := some (f m) } := by simp [State.updateMessage, h]

theorem State.message?_updateMessage_fun {s : State} {n : Nat} {m : Message} (h : s.message? n = some m)
    (f : Message → Message) : (s.updateMessage n f).message? = Function.update s.message? n (some (f m)) := by
  rw [State.updateMessage_eq h, State.message?_putSlot_fun]

theorem chainAt_putChain_fun (ix : Sparse (List Nat)) (b : Nat) (c : List Nat) :
    chainAt (putChain ix b c) = Function.update (chainAt ix) b c := by
  funext d
  by_cases h : d = b
  · subst h; simp
  · simp [h]

/-! ## The invariant with its holes -/

/-- The four tables with rising keys. -/
structure State.Rising (s : State) : Prop where
  records : s.stu.records.rising = true
  slots : s.msu.slots.rising = true
  numbers : s.stu.numberIndex.rising = true
  addresses : s.stu.addressIndex.rising = true

/-- Both free lists account for their records and slots, on a READY table they are lists of them all, with the low-water
state that the count gives, and a table that is not READY has no record (R2, R10, R33, R36). -/
structure State.Lists (s : State) : Prop where
  records : s.stu.free.Counts s.stu.freeCount s.record?
  slots : s.msu.free.Counts s.msu.freeCount s.message?
  ready : s.stu.state = .ready → s.stu.free.limit = s.stu.capacity ∧ s.msu.free.limit = Config.slotCount ∧
    s.msu.lowWater = decide (s.msu.freeCount ≤ Config.lowWater)
  empty : s.stu.state ≠ .ready → ∀ i, s.record? i = none

/-- The place of each slot, those of `out` being in none. -/
def placesOf (message : Nat → Option Message) (out : List Nat) (n : Nat) : Option Place :=
  if n ∈ out then none else (message n).map (·.place)

/-- The store invariant with its holes: the slots of `out` are in no place, and whether the freeing of the record
`loose` is due is still to be looked at. -/
structure State.Kept (out : List Nat) (loose : Option Nat) (s : State) : Prop where
  rising : s.Rising
  lists : s.Lists
  numbers : Indexed s.record? (·.state ≠ .retiring) (·.number) s.stu.numberBucket (chainAt s.stu.numberIndex)
  addresses : Indexed s.record? (fun _ => True) (·.address) s.stu.addressBucket (chainAt s.stu.addressIndex)
  places : Places (placesOf s.message? out) s.dsu.queues.slots (s.dsu.staging.map (·.slot))
    (s.dsu.sending.map (·.slot)) s.aru.timed
  owners : Owners s.record? s.message?
  closings : Closings s.record? s.closingIndexes loose

/-! ## The invariant is `State.storeGood` -/

section
variable {s : State}

theorem State.mem_messages (h : s.msu.slots.rising = true) {n : Nat} {m : Message} :
    (n, m) ∈ s.messages ↔ s.message? n = some m := by
  simp only [State.messages, List.mem_filterMap, Option.map_eq_some_iff, Prod.mk.injEq, Prod.exists]
  constructor
  · rintro ⟨k, v, hkv, m', hm', rfl, rfl⟩
    simp [State.message?, State.slot, (Sparse.look_iff_mem h).mpr hkv, hm']
  · intro hm
    cases hl : s.msu.slots.look n with
    | none => simp [State.message?, State.slot, hl] at hm
    | some v => exact ⟨n, v, Sparse.mem_of_look hl, m, by simpa [State.message?, State.slot, hl] using hm, rfl, rfl⟩

theorem State.messages_keys_nodup (h : s.msu.slots.rising = true) : (s.messages.map (·.1)).Nodup := by
  have hsub : (s.messages.map (·.1)).Sublist (s.msu.slots.map (·.1)) := by
    unfold State.messages
    generalize s.msu.slots = l
    induction l with
    | nil => exact List.Sublist.refl _
    | cons p l ih =>
      cases hp : p.2.message with
      | none => simpa [hp] using ih.cons _
      | some m => simpa [hp] using ih
  exact hsub.nodup (Sparse.keys_nodup h)

theorem State.mem_messages_keys (h : s.msu.slots.rising = true) (n : Nat) :
    n ∈ s.messages.map (·.1) ↔ (s.message? n).isSome := by
  simp [Option.isSome_iff_exists, ← State.mem_messages h]

theorem State.mem_records_keys (h : s.stu.records.rising = true) (i : Nat) :
    i ∈ s.stu.records.map (·.1) ↔ (s.record? i).isSome := by
  simp [Option.isSome_iff_exists, State.record?, Sparse.look_iff_mem h]

theorem State.freeListsGood_iff (h : s.Rising) : s.freeListsGood = true ↔ s.Lists := by
  have hr := FreeList.accounts_iff (f := s.stu.free) (count := s.stu.freeCount) (Sparse.keys_nodup h.records)
    (State.mem_records_keys h.records)
  have hs := FreeList.accounts_iff (f := s.msu.free) (count := s.msu.freeCount) (State.messages_keys_nodup h.slots)
    (State.mem_messages_keys h.slots)
  have he : s.stu.records.isEmpty = true ↔ ∀ i, s.record? i = none := by
    rw [List.isEmpty_iff]
    constructor
    · intro h0 i; simp [State.record?, h0, Sparse.look]
    · intro h0
      cases hl : s.stu.records with
      | nil => rfl
      | cons p l => simpa [State.record?, hl, Sparse.look] using h0 p.1
  simp only [State.freeListsGood, Bool.and_eq_true, hr, hs]
  by_cases hready : s.stu.state = .ready
  · simp only [hready, if_true, Bool.and_eq_true, beq_iff_eq]
    exact ⟨fun ⟨⟨h1, h2⟩, ⟨h3, h4⟩, h5⟩ => ⟨h1, h2, fun _ => ⟨h3, h4, h5⟩, fun hn => absurd hready hn⟩,
      fun ⟨h1, h2, h3, _⟩ => ⟨⟨h1, h2⟩, ⟨(h3 hready).1, (h3 hready).2.1⟩, (h3 hready).2.2⟩⟩
  · simp only [hready, if_false, he]
    exact ⟨fun ⟨⟨h1, h2⟩, h3⟩ => ⟨h1, h2, fun hn => absurd hn hready, fun _ => h3⟩,
      fun ⟨h1, h2, _, h4⟩ => ⟨⟨h1, h2⟩, h4 hready⟩⟩

/-- Every chain listed is what `p` asks of it and its bucket, said of the chain at each bucket. -/
theorem all_chains_iff {ix : Sparse (List Nat)} (h : ix.rising = true) {p : Nat → Nat → Prop} :
    (∀ q ∈ ix, q.2.Nodup ∧ ∀ i ∈ q.2, p q.1 i) ↔ ∀ b, (chainAt ix b).Nodup ∧ ∀ i ∈ chainAt ix b, p b i := by
  constructor
  · intro hall b
    cases hl : ix.look b with
    | none => simp [chainAt, hl]
    | some c => simpa [chainAt, hl] using hall _ (Sparse.mem_of_look hl)
  · rintro hall ⟨b, c⟩ hq
    simpa [chainAt, (Sparse.look_iff_mem h).mpr hq] using hall b

theorem State.indexed_iff (h : s.Rising) : s.indexed = true ↔
    Indexed s.record? (·.state ≠ .retiring) (·.number) s.stu.numberBucket (chainAt s.stu.numberIndex) ∧
    Indexed s.record? (fun _ => True) (·.address) s.stu.addressBucket (chainAt s.stu.addressIndex) := by
  have hrec : ∀ i r, (i, r) ∈ s.stu.records ↔ s.record? i = some r := fun i r => (Sparse.look_iff_mem h.records).symm
  simp only [State.indexed, Bool.and_eq_true, List.all_eq_true, decide_eq_true_eq, Bool.or_eq_true, beq_iff_eq,
    all_chains_iff h.numbers (p := fun b i =>
      ((s.record? i).any fun r => r.state != .retiring && s.stu.numberBucket r.number == b) = true),
    all_chains_iff h.addresses (p := fun b i => ((s.record? i).any fun r => s.stu.addressBucket r.address == b) = true),
    Prod.forall, hrec]
  constructor
  · rintro ⟨⟨hn, ha⟩, hf⟩
    refine ⟨⟨fun b => (hn b).1, fun b i => ⟨fun hi => ?_, ?_⟩, fun {i j r r'} hr hr' hl hl' hk => ?_⟩,
      ⟨fun b => (ha b).1, fun b i => ⟨fun hi => ?_, ?_⟩, fun {i j r r'} hr hr' _ _ hk => ?_⟩⟩
    · have := (hn b).2 i hi
      simp only [Option.any_eq_true, Bool.and_eq_true, bne_iff_ne, beq_iff_eq] at this
      exact this
    · rintro ⟨r, hr, hl, rfl⟩
      exact List.mem_of_find?_eq_some ((hf i r hr).1.resolve_left hl)
    · have h1 := (hf i r hr).1.resolve_left hl
      have h2 := (hf j r' hr').1.resolve_left hl'
      rw [hk, h2] at h1
      exact (Option.some.inj h1).symm
    · have := (ha b).2 i hi
      simp only [Option.any_eq_true, beq_iff_eq] at this
      obtain ⟨r, hr, hb⟩ := this
      exact ⟨r, hr, trivial, hb⟩
    · rintro ⟨r, hr, -, rfl⟩
      exact List.mem_of_find?_eq_some (hf i r hr).2
    · have h1 := (hf i r hr).2
      have h2 := (hf j r' hr').2
      rw [hk, h2] at h1
      exact (Option.some.inj h1).symm
  · rintro ⟨hn, ha⟩
    refine ⟨⟨fun b => ⟨hn.nodup b, fun i hi => ?_⟩, fun b => ⟨ha.nodup b, fun i hi => ?_⟩⟩, fun i r hr => ⟨?_, ?_⟩⟩
    · obtain ⟨r, hr, hl, hb⟩ := (hn.mem_iff b i).mp hi
      simp [hr, hl, hb]
    · obtain ⟨r, hr, -, hb⟩ := (ha.mem_iff b i).mp hi
      simp [hr, hb]
    · by_cases hl : r.state = .retiring
      · exact .inl hl
      · exact .inr (hn.find_iff.mpr ⟨r, hr, hl, rfl⟩)
    · exact ha.find_iff.mpr ⟨r, hr, trivial, rfl⟩

/-- The slots in a place, the four queues taken together. -/
theorem State.placed_eq (s : State) : s.placed = s.dsu.queues.slots ++ (s.dsu.staging.map (·.slot)).toList ++
    (s.dsu.sending.map (·.slot)).toList ++ s.aru.timed := rfl

theorem State.holds_iff {n : Nat} {p : Place} : s.holds n p = true ↔
    match p with
    | .queued => n ∈ s.dsu.queues.slots
    | .staged => s.dsu.staging.map (·.slot) = some n
    | .sending => s.dsu.sending.map (·.slot) = some n
    | .awaiting _ | .held _ => n ∈ s.aru.timed := by
  cases p <;> simp [State.holds, Queues.slots, or_assoc]

theorem State.placesGood_iff (h : s.Rising) : s.placesGood = true ↔
    Places (placesOf s.message? []) s.dsu.queues.slots (s.dsu.staging.map (·.slot)) (s.dsu.sending.map (·.slot))
      s.aru.timed := by
  simp only [State.placesGood, Bool.and_eq_true, decide_eq_true_eq, List.all_eq_true, Prod.forall,
    State.mem_messages h.slots]
  rw [State.placed_eq]
  generalize hst : s.dsu.staging.map (·.slot) = staged
  generalize hse : s.dsu.sending.map (·.slot) = sending
  have hp : ∀ n p, placesOf s.message? [] n = some p ↔ ∃ m, s.message? n = some m ∧ m.place = p := by
    intro n p; simp [placesOf]
  constructor
  · rintro ⟨⟨hnd, hsome⟩, hholds⟩
    obtain ⟨h123, htn, hd123⟩ := List.nodup_append'.mp hnd
    obtain ⟨h12, -, hd12⟩ := List.nodup_append'.mp h123
    obtain ⟨hqn, -, hd1⟩ := List.nodup_append'.mp h12
    simp only [List.Disjoint, List.mem_append, Option.mem_toList] at hd123 hd12 hd1 hsome
    have hparts : ∀ n m, s.message? n = some m → (n ∈ s.dsu.queues.slots ↔ m.place = .queued) ∧
        (staged = some n ↔ m.place = .staged) ∧ (sending = some n ↔ m.place = .sending) ∧
        (n ∈ s.aru.timed ↔ m.place.isTimed = true) := by
      intro n m hm
      have hh := hholds n m hm
      rw [State.holds_iff, hst, hse] at hh
      have h1 := @hd1 n
      have h2 := @hd12 n
      have h3 := @hd123 n
      cases hpl : m.place <;> rw [hpl] at hh <;> simp only at hh <;> simp only [Place.isTimed] <;> tauto
    refine ⟨hqn, htn, fun n => ?_, fun n => ?_, fun n => ?_, fun n => ?_⟩
    all_goals simp only [hp]
    · refine ⟨fun hn => ?_, fun ⟨m, hm, hpl⟩ => (hparts n m hm).1.mpr hpl⟩
      obtain ⟨m, hm⟩ := Option.isSome_iff_exists.mp (hsome n (.inl (.inl (.inl hn))))
      exact ⟨m, hm, (hparts n m hm).1.mp hn⟩
    · refine ⟨fun hn => ?_, fun ⟨m, hm, hpl⟩ => (hparts n m hm).2.1.mpr hpl⟩
      obtain ⟨m, hm⟩ := Option.isSome_iff_exists.mp (hsome n (.inl (.inl (.inr hn))))
      exact ⟨m, hm, (hparts n m hm).2.1.mp hn⟩
    · refine ⟨fun hn => ?_, fun ⟨m, hm, hpl⟩ => ?_⟩
      · obtain ⟨m, hm⟩ := Option.isSome_iff_exists.mp (hsome n (.inl (.inr hn)))
        obtain ⟨-, -, hsend, -⟩ := hparts n m hm
        exact ⟨m, hm, hsend.mp hn⟩
      · obtain ⟨-, -, hsend, -⟩ := hparts n m hm
        exact hsend.mpr hpl
    · refine ⟨fun hn => ?_, fun ⟨p, ⟨m, hm, hpl⟩, ht⟩ => ?_⟩
      · obtain ⟨m, hm⟩ := Option.isSome_iff_exists.mp (hsome n (.inr hn))
        obtain ⟨-, -, -, htimed⟩ := hparts n m hm
        exact ⟨m.place, ⟨m, hm, rfl⟩, htimed.mp hn⟩
      · obtain ⟨-, -, -, htimed⟩ := hparts n m hm
        exact htimed.mpr (hpl ▸ ht)
  · rintro ⟨hqn, htn, hq, hs, he, ht⟩
    simp only [hp] at hq hs he ht
    refine ⟨⟨?_, fun n hn => ?_⟩, fun n m hm => ?_⟩
    · simp only [List.nodup_append', hqn, htn, true_and, List.Disjoint, List.mem_append, Option.mem_toList,
        hq, hs, he, ht]
      refine ⟨⟨⟨by cases staged <;> simp, ?_⟩, by cases sending <;> simp, ?_⟩, ?_⟩
      · rintro n ⟨m, hm, hpl⟩ ⟨m', hm', hpl'⟩
        rw [hm] at hm'; cases hm'; rw [hpl] at hpl'; cases hpl'
      · rintro n (⟨m, hm, hpl⟩ | ⟨m, hm, hpl⟩) ⟨m', hm', hpl'⟩ <;>
          (rw [hm] at hm'; cases hm'; rw [hpl] at hpl'; cases hpl')
      · rintro n ((⟨m, hm, hpl⟩ | ⟨m, hm, hpl⟩) | ⟨m, hm, hpl⟩) ⟨p, ⟨m', hm', hpl'⟩, hpt⟩ <;>
          (rw [hm] at hm'; cases hm'; rw [hpl] at hpl'; cases hpl'; cases hpt)
    · simp only [List.mem_append, Option.mem_toList, hq, hs, he, ht] at hn
      rcases hn with ((⟨m, hm, -⟩ | ⟨m, hm, -⟩) | ⟨m, hm, -⟩) | ⟨p, ⟨m, hm, -⟩, -⟩ <;> simp [hm]
    · rw [State.holds_iff, hst, hse]
      cases hpl : m.place with
      | queued => exact (hq n).mpr ⟨m, hm, hpl⟩
      | staged => exact (hs n).mpr ⟨m, hm, hpl⟩
      | sending => exact (he n).mpr ⟨m, hm, hpl⟩
      | awaiting d => exact (ht n).mpr ⟨_, ⟨m, hm, hpl⟩, rfl⟩
      | held d => exact (ht n).mpr ⟨_, ⟨m, hm, hpl⟩, rfl⟩

/-- A live list carries each tag once. -/
theorem State.liveTags_nodup_iff {i : Nat} {r : Record} (hnd : r.live.Nodup)
    (hlive : ∀ n ∈ r.live, ∃ m, s.message? n = some m ∧ m.owner = i) :
    (s.liveTags r).Nodup ↔ ∀ n ∈ r.live, ∀ k ∈ r.live, ∀ m m', s.message? n = some m → s.message? k = some m' →
      m.tag = m'.tag → n = k := by
  have hmap : ∀ l : List Nat, (∀ n ∈ l, ∃ m, s.message? n = some m ∧ m.owner = i) →
      l.filterMap (fun n => (s.message? n).map (·.tag)) = l.map fun n => (s.message? n).elim 0 (·.tag) := by
    intro l
    induction l with
    | nil => simp
    | cons n l ih =>
      intro hl
      obtain ⟨m, hm, -⟩ := hl n (by simp)
      simpa [hm] using ih fun k hk => hl k (by simp [hk])
  rw [State.liveTags, hmap _ hlive, List.nodup_map_iff_inj_on hnd]
  constructor
  · intro hinj n hn k hk m m' hm hm' ht
    exact hinj n hn k hk (by simp [hm, hm', ht])
  · intro hinj n hn k hk ht
    obtain ⟨m, hm, -⟩ := hlive n hn
    obtain ⟨m', hm', -⟩ := hlive k hk
    exact hinj n hn k hk m m' hm hm' (by simpa [hm, hm'] using ht)

theorem State.owned_iff (h : s.Rising) : (s.owned = true ∧ s.reserved = true) ↔ Owners s.record? s.message? := by
  have hrec : ∀ i r, (i, r) ∈ s.stu.records ↔ s.record? i = some r := fun i r => (Sparse.look_iff_mem h.records).symm
  simp only [State.owned, State.reserved, Bool.and_eq_true, List.all_eq_true, Prod.forall, State.mem_messages h.slots,
    hrec, Option.any_eq_true, decide_eq_true_eq, List.contains_iff_mem, beq_iff_eq, and_assoc]
  constructor
  · rintro ⟨hm, hr, hp⟩
    have hlive : ∀ {i r}, s.record? i = some r → ∀ n, n ∈ r.live ↔ ∃ m, s.message? n = some m ∧ m.owner = i := by
      intro i r hri n
      obtain ⟨-, hlive, -⟩ := hr i r hri
      refine ⟨hlive n, ?_⟩
      rintro ⟨m, hmn, rfl⟩
      obtain ⟨x, hx, hl, -⟩ := hm n m hmn
      rw [hri] at hx; cases hx; exact hl
    constructor
    case owned => intro n m hmn; obtain ⟨r, hr, -⟩ := hm n m hmn; simp [hr]
    case live_iff => exact hlive
    case held_iff =>
      intro i r hri n
      obtain ⟨-, -, -, -, hheld, -⟩ := hr i r hri
      refine ⟨fun hn => ?_, ?_⟩
      · obtain ⟨m, hmn, ho⟩ := (hlive hri n).mp (hheld n hn)
        obtain ⟨x, hx, -, hh⟩ := hm n m hmn
        rw [ho, hri] at hx; cases hx
        exact ⟨m, hmn, ho, by rw [← hh]; simpa using hn⟩
      · rintro ⟨m, hmn, rfl, hh⟩
        obtain ⟨x, hx, -, hh'⟩ := hm n m hmn
        rw [hri] at hx; cases hx
        simpa [hh] using hh'
    case live_nodup => intro i r hri; obtain ⟨hnd, -⟩ := hr i r hri; exact hnd
    case held_nodup => intro i r hri; obtain ⟨-, -, -, hnd, -⟩ := hr i r hri; exact hnd
    case held_length => intro i r hri; obtain ⟨-, -, -, -, -, hlength⟩ := hr i r hri; exact hlength
    case tags =>
      intro n k m m' hmn hmk ho ht
      obtain ⟨r, hri, hl, -⟩ := hm n m hmn
      have hk : k ∈ r.live := (hlive hri k).mpr ⟨m', hmk, ho.symm⟩
      obtain ⟨hnd, hlive, htags, -⟩ := hr _ r hri
      exact (State.liveTags_nodup_iff hnd hlive).mp htags n hl k hk m m' hmn hmk ht
    case pending => intro i r hri; exact hp i r hri
  · intro ho
    refine ⟨fun n m hm => ?_, fun i r hr => ?_, fun i r hr => ho.pending hr⟩
    · obtain ⟨r, hr⟩ := Option.isSome_iff_exists.mp (ho.owned hm)
      refine ⟨r, hr, (ho.live_iff hr n).mpr ⟨m, hm, rfl⟩, ?_⟩
      rw [Bool.eq_iff_iff, List.contains_iff_mem, ho.held_iff hr]
      simp [hm]
    · have hlive := fun n => (ho.live_iff hr n).mp
      refine ⟨ho.live_nodup hr, hlive, ?_, ho.held_nodup hr, fun n hn => ?_, ho.held_length hr⟩
      · refine (State.liveTags_nodup_iff (ho.live_nodup hr) hlive).mpr fun n hn k hk m m' hm hm' ht => ho.tags hm hm' ?_ ht
        obtain ⟨x, hx, hxo⟩ := hlive n hn
        obtain ⟨x', hx', hxo'⟩ := hlive k hk
        rw [hm] at hx; cases hx
        rw [hm'] at hx'; cases hx'
        rw [hxo, hxo']
      · obtain ⟨m, hm, hmo, -⟩ := (ho.held_iff hr n).mp hn
        exact (ho.live_iff hr n).mpr ⟨m, hm, hmo⟩

theorem State.closingsGood_iff (h : s.Rising) :
    s.closingsGood = true ↔ Closings s.record? s.closingIndexes none := by
  have hrec : ∀ i r, (i, r) ∈ s.stu.records ↔ s.record? i = some r := fun i r => (Sparse.look_iff_mem h.records).symm
  have hdue : ∀ r : Record, (r.state == .retiring && r.live.isEmpty) = true ↔ r.Due := fun r => by
    simp [Record.Due]
  simp only [State.closingsGood, Bool.and_eq_true, decide_eq_true_eq, List.all_eq_true, Prod.forall, hrec, beq_iff_eq]
  constructor
  · rintro ⟨⟨hnd, hsome⟩, hall⟩
    refine ⟨hnd, fun {i} hi => ?_, fun {i r} hr hc => ?_, fun {i r} hr hd _ => ?_, by simp⟩
    · obtain ⟨r, hr⟩ := Option.isSome_iff_exists.mp (hsome i hi)
      exact ⟨r, hr, by rw [(hall i r hr).2]; simpa using hi⟩
    · exact (hdue r).mp ((hall i r hr).1 ▸ hc)
    · have hc : r.closing = true := by rw [(hall i r hr).1]; exact (hdue r).mpr hd
      rw [(hall i r hr).2] at hc; simpa using hc
  · intro hc
    have hiff : ∀ i r, s.record? i = some r → (r.closing = true ↔ i ∈ s.closingIndexes) := fun i r hr =>
      ⟨fun hrc => hc.waits hr (hc.due hr hrc) (by simp), fun hi => by
        obtain ⟨x, hx, hxc⟩ := hc.marked hi
        rw [hr] at hx; cases hx; exact hxc⟩
    refine ⟨⟨hc.nodup, fun i hi => ?_⟩, fun i r hr => ⟨?_, ?_⟩⟩
    · obtain ⟨r, hr, -⟩ := hc.marked hi; simp [hr]
    · rw [Bool.eq_iff_iff, hdue]
      exact ⟨hc.due hr, fun hd => (hiff i r hr).mpr (hc.waits hr hd (by simp))⟩
    · rw [Bool.eq_iff_iff, List.contains_iff_mem]; exact hiff i r hr

/-- With no holes the invariant is `State.storeGood`. -/
theorem State.kept_iff (h : s.Rising) : s.Kept [] none ↔ s.storeGood = true := by
  have hl := State.freeListsGood_iff h
  have hi := State.indexed_iff h
  have hp := State.placesGood_iff h
  have ho := State.owned_iff h
  have hc := State.closingsGood_iff h
  simp only [State.storeGood, Bool.and_eq_true]
  constructor
  · rintro ⟨-, h1, h2, h3, h4, h5, h6⟩
    obtain ⟨how, hre⟩ := ho.mpr h5
    exact ⟨⟨⟨⟨⟨hl.mpr h1, hi.mpr ⟨h2, h3⟩⟩, hp.mpr h4⟩, how⟩, hre⟩, hc.mpr h6⟩
  · rintro ⟨⟨⟨⟨⟨h1, h2⟩, h3⟩, h4⟩, h5⟩, h6⟩
    exact ⟨h, hl.mp h1, (hi.mp h2).1, (hi.mp h2).2, hp.mp h3, ho.mp ⟨h4, h5⟩, hc.mp h6⟩

theorem State.rising_of_canonical (h : s.canonical = true) : s.Rising := by
  simp only [State.canonical, Bool.and_eq_true] at h
  obtain ⟨⟨⟨⟨⟨⟨hr, hs⟩, -⟩, hn⟩, -⟩, ha⟩, -⟩ := h
  exact ⟨hr, hs, hn, ha⟩

end

end Sys2Proof.Machine
end


section
namespace Sys2Proof.Machine
open Sys2Proof

/-! ## What the invariant reads -/

/-- The parts of the state that the store invariant reads. -/
structure StorePart where
  stu : Stu
  slots : Sparse Slot
  free : FreeList
  freeCount : Nat
  lowWater : Bool
  queues : Queues
  staging : Option Staged
  sending : Option Sending
  timed : List Nat
  closing : List Nat

def State.storePart (s : State) : StorePart :=
  { stu := s.stu, slots := s.msu.slots, free := s.msu.free, freeCount := s.msu.freeCount, lowWater := s.msu.lowWater,
    queues := s.dsu.queues, staging := s.dsu.staging, sending := s.dsu.sending, timed := s.aru.timed,
    closing := s.closingIndexes }

section
variable {s t : State} {out : List Nat} {loose : Option Nat}

theorem State.record?_eq (h : t.stu.records = s.stu.records) : t.record? = s.record? :=
  funext fun i => State.record?_congr h i

theorem State.message?_eq (h : t.msu.slots = s.msu.slots) : t.message? = s.message? :=
  funext fun n => State.message?_congr h n

theorem State.Kept.congr (h : s.Kept out loose) (he : t.storePart = s.storePart) : t.Kept out loose := by
  simp only [State.storePart, StorePart.mk.injEq] at he
  obtain ⟨hstu, hslots, hfree, hcount, hlow, hq, hst, hse, hti, hc⟩ := he
  obtain ⟨⟨h1, h2, h3, h4⟩, ⟨h5, h6, h7, h8⟩, h9, h10, h11, h12, h13⟩ := h
  have hr : t.record? = s.record? := State.record?_eq (by rw [hstu])
  have hm : t.message? = s.message? := State.message?_eq hslots
  refine ⟨⟨?_, ?_, ?_, ?_⟩, ⟨?_, ?_, ?_, ?_⟩, ?_, ?_, ?_, ?_, ?_⟩
  all_goals simp only [hstu, hslots, hfree, hcount, hlow, hq, hst, hse, hti, hc, hr, hm]; assumption

end

/-! ## The table's frame -/

theorem Stu.sameFrame.bucket {a b : Stu} (h : a.sameFrame b) :
    a.numberBucket = b.numberBucket ∧ a.addressBucket = b.addressBucket := by
  obtain ⟨-, hc, -⟩ := h
  constructor <;> funext n <;> simp [Stu.numberBucket, Stu.addressBucket, Stu.buckets, hc]

theorem Stu.sameFrame.refl (a : Stu) : a.sameFrame a := ⟨rfl, rfl, rfl, rfl, rfl, rfl, rfl⟩

/-- What the free lists count is kept by a change of values in the two tables that frees and gives out nothing. -/
theorem State.Lists.congr {s t : State} (h : s.Lists) (hf : t.stu.sameFrame s.stu)
    (hfree : t.msu.free = s.msu.free) (hcount : t.msu.freeCount = s.msu.freeCount)
    (hlow : t.msu.lowWater = s.msu.lowWater) (hr : ∀ i, (t.record? i).isSome = (s.record? i).isSome)
    (hm : ∀ n, (t.message? n).isSome = (s.message? n).isSome) : t.Lists := by
  obtain ⟨hstate, hcap, hrf, hrc, -⟩ := hf
  refine ⟨?_, ?_, ?_, ?_⟩
  · rw [hrf, hrc]; exact h.records.congr hr
  · rw [hfree, hcount]; exact h.slots.congr hm
  · rw [hstate, hrf, hcap, hfree, hlow, hcount]; exact h.ready
  · rw [hstate]; intro hn i; simpa [h.empty hn i] using hr i

theorem isSome_update {β : Type} {f : Nat → Option β} {i : Nat} {v w : β} (h : f i = some v) (j : Nat) :
    (Function.update f i (some w) j).isSome = (f j).isSome := by
  by_cases hj : j = i
  · subst hj; simp [h]
  · simp [hj]

/-! ## Placing -/

section
variable {message : Nat → Option Message} {out : List Nat} {n : Nat} {m : Message}

theorem placesOf_cons : placesOf message (n :: out) = Function.update (placesOf message out) n none := by
  funext k
  by_cases hk : k = n
  · subst hk; simp [placesOf]
  · simp [placesOf, hk]

/-- A change of a message that keeps its place, or of one that is in no place. -/
theorem placesOf_update {m' : Message} (hm : message n = some m) (hp : m'.place = m.place ∨ n ∈ out) :
    placesOf (Function.update message n (some m')) out = placesOf message out := by
  funext k
  by_cases hk : k = n
  · subst hk
    rcases hp with hp | hp <;> simp [placesOf, hm, hp]
  · simp [placesOf, hk]

/-- A slot that was in no place has the place its message names. -/
theorem placesOf_placed {m' : Message} (hn : n ∉ out) :
    placesOf (Function.update message n (some m')) out =
      Function.update (placesOf message (n :: out)) n (some m'.place) := by
  funext k
  by_cases hk : k = n
  · subst hk; simp [placesOf, hn]
  · simp [placesOf, hk]

theorem placesOf_freed : placesOf (Function.update message n none) out = placesOf message (n :: out) := by
  funext k
  by_cases hk : k = n
  · subst hk; simp [placesOf]
  · simp [placesOf, hk]

theorem placesOf_in (hm : message n = some m) (hn : n ∉ out) : placesOf message out n = some m.place := by
  simp [placesOf, hm, hn]

theorem placesOf_eq_some {p : Place} (h : placesOf message out n = some p) :
    n ∉ out ∧ ∃ m, message n = some m ∧ m.place = p := by
  unfold placesOf at h
  split at h
  next => cases h
  next hn => exact ⟨hn, by simpa using h⟩

end

/-! ## The queues -/

namespace Queues
variable {q : Queues} {n : Nat} {rest : List Nat}

theorem slots_set_append (q : Queues) (k : QueueName) (n : Nat) :
    ((q.set k (q.get k ++ [n])).slots).Perm (n :: q.slots) := by
  rw [List.perm_iff_count]
  intro a
  cases k <;> simp [Queues.set, Queues.get, Queues.slots, List.count_cons] <;> omega

theorem slots_set_cons (q : Queues) (k : QueueName) (n : Nat) :
    ((q.set k (n :: q.get k)).slots).Perm (n :: q.slots) := by
  rw [List.perm_iff_count]
  intro a
  cases k <;> simp [Queues.set, Queues.get, Queues.slots, List.count_cons] <;> omega

theorem slots_set_tail {k : QueueName} (h : q.get k = n :: rest) : q.slots.Perm (n :: (q.set k rest).slots) := by
  rw [List.perm_iff_count]
  intro a
  cases k <;> simp only [Queues.get] at h <;> simp [Queues.set, Queues.slots, h, List.count_cons] <;> omega

theorem mem_slots_of_get {k : QueueName} (h : n ∈ q.get k) : n ∈ q.slots := by
  cases k <;> simp only [Queues.get] at h <;> simp [Queues.slots, h]

theorem slots_erase (hn : n ∈ q.slots) (hnd : q.slots.Nodup) : q.slots.Perm (n :: (q.erase n).slots) := by
  rw [List.perm_iff_count]
  have h1 := List.count_eq_one_of_mem hnd hn
  intro a
  by_cases ha : a = n
  · subst ha
    simp only [Queues.slots, List.count_append] at h1
    simp [Queues.slots, Queues.erase]
    omega
  · simp [Queues.slots, Queues.erase, Ne.symm ha, List.count_erase_of_ne ha]

end Queues

end Sys2Proof.Machine
end


section
namespace Sys2Proof.Machine
open Sys2Proof

/-! ## The operations on records and slots keep the invariant -/

/-- The store reads the same of two records: they stand in the same indexes under the same keys, with the same lists,
pending and mark. -/
structure Record.SameStore (r r' : Record) : Prop extends r.SameSlots r' where
  number : r.number = r'.number
  address : r.address = r'.address
  closing : r.closing = r'.closing
  retiring : r.state = .retiring ↔ r'.state = .retiring

theorem Record.SameStore.refl (r : Record) : r.SameStore r := ⟨⟨rfl, rfl, rfl⟩, rfl, rfl, rfl, Iff.rfl⟩

theorem Record.sameStore_closePeriod (r : Record) (period : Nat) : (r.closePeriod period).SameStore r :=
  ⟨⟨rfl, rfl, rfl⟩, rfl, rfl, rfl, Iff.rfl⟩

theorem State.putRecord_sameFrame (s : State) (i : Nat) (r : Record) : (s.putRecord i r).stu.sameFrame s.stu :=
  ⟨rfl, rfl, rfl, rfl, rfl, rfl, rfl⟩

theorem State.closingIndexes_congr {s t : State} (h : t.pdu.waiters = s.pdu.waiters) :
    t.closingIndexes = s.closingIndexes := by simp [State.closingIndexes, h]

theorem State.Rising.putRecord {s : State} (h : s.Rising) (i : Nat) (r : Record) : (s.putRecord i r).Rising :=
  ⟨Sparse.rising_put h.records, h.slots, h.numbers, h.addresses⟩

theorem State.Rising.putSlot {s : State} (h : s.Rising) (n : Nat) (v : Slot) : (s.putSlot n v).Rising := by
  refine ⟨h.records, ?_, h.numbers, h.addresses⟩
  simp only [State.putSlot]
  split
  · exact Sparse.rising_drop h.slots
  · exact Sparse.rising_put h.slots

namespace State.Kept
variable {s : State} {out : List Nat} {loose : Option Nat} {i n : Nat} {r r' : Record} {m m' : Message}

/-- A change of a record in nothing that the store reads. -/
theorem putRecord (h : s.Kept out loose) (hr : s.record? i = some r) (hs : r'.SameStore r) :
    (s.putRecord i r').Kept out loose := by
  have hrec := State.record?_putRecord_fun s i r'
  refine ⟨h.rising.putRecord i r', ?_, ?_, ?_, h.places, ?_, ?_⟩
  · exact h.lists.congr (State.putRecord_sameFrame s i r') rfl rfl rfl (by rw [hrec]; exact isSome_update hr)
      fun _ => rfl
  · rw [hrec]; exact h.numbers.change hr (by simp only [ne_eq, hs.retiring]) hs.number
  · rw [hrec]; exact h.addresses.change hr Iff.rfl hs.address
  · rw [hrec]; exact h.owners.changeRecord hr hs.toSameSlots
  · rw [hrec]; exact h.closings.change hr hs.closing (by simp only [Record.Due, hs.retiring, hs.live])

theorem updateRecord (h : s.Kept out loose) {f : Record → Record} (hs : ∀ r, s.record? i = some r → (f r).SameStore r) :
    (s.updateRecord i f).Kept out loose := by
  cases hr : s.record? i with
  | none => simpa [State.updateRecord, hr] using h
  | some r => rw [State.updateRecord_eq hr]; exact h.putRecord hr (hs r hr)

/-- A change of a message in nothing that its owner reads, its place kept, or the slot in no place. -/
theorem updateMessage (h : s.Kept out loose) {f : Message → Message} (hm : s.message? n = some m)
    (hs : (f m).SameOwned m) (hp : (f m).place = m.place ∨ n ∈ out) : (s.updateMessage n f).Kept out loose := by
  have hmsg := State.message?_updateMessage_fun hm f
  rw [State.updateMessage_eq hm] at *
  refine ⟨h.rising.putSlot n _, ?_, h.numbers, h.addresses, ?_, ?_, h.closings⟩
  · exact h.lists.congr (Stu.sameFrame.refl _) rfl rfl rfl (fun _ => rfl) (by rw [hmsg]; exact isSome_update hm)
  · rw [hmsg, placesOf_update hm hp]; exact h.places
  · rw [hmsg]; exact h.owners.changeMessage hm hs

/-- The owner of a slot that is not FREE. -/
theorem owner (h : s.Kept out loose) (hm : s.message? n = some m) :
    ∃ r, s.record? m.owner = some r ∧ n ∈ r.live := by
  obtain ⟨r, hr⟩ := Option.isSome_iff_exists.mp (h.owners.owned hm)
  exact ⟨r, hr, (h.owners.live_iff hr n).mpr ⟨m, hm, rfl⟩⟩

/-- The freeing of the owner of a slot is not due. -/
theorem owner_not_due (h : s.Kept out loose) (hm : s.message? n = some m) (hr : s.record? m.owner = some r) :
    ¬ r.Due := by
  rintro ⟨-, hl⟩
  have := (h.owners.live_iff hr n).mpr ⟨m, hm, rfl⟩
  simp [hl] at this

/-- The places after a slot has been taken out of the one its message names. -/
theorem places_takeOut (h : s.Kept out loose) (hm : s.message? n = some m) (hn : n ∉ out) :
    Places (placesOf s.message? (n :: out)) (s.takeOut n m.place).dsu.queues.slots
      ((s.takeOut n m.place).dsu.staging.map (·.slot)) ((s.takeOut n m.place).dsu.sending.map (·.slot))
      (s.takeOut n m.place).aru.timed := by
  have hp := placesOf_in hm hn
  rw [placesOf_cons]
  cases hpl : m.place <;> rw [hpl] at hp
  case queued => exact h.places.dequeue (Queues.slots_erase ((h.places.queued_iff n).mpr hp) h.places.queued_nodup)
  case staged => exact h.places.unstage hp
  case sending => exact h.places.unsend hp
  case awaiting d => exact h.places.untime hp rfl
  case held d => exact h.places.untime hp rfl

theorem takeOut (h : s.Kept out loose) (hm : s.message? n = some m) (hn : n ∉ out) :
    (s.takeOut n m.place).Kept (n :: out) loose := by
  have hplaces := h.places_takeOut hm hn
  obtain ⟨⟨h1, h2, h3, h4⟩, h5, h6, h7, -, h8, h9⟩ := h
  have hr : (s.takeOut n m.place).record? = s.record? := State.record?_eq (by simp)
  have hmsg : (s.takeOut n m.place).message? = s.message? := State.message?_eq (by simp)
  have hc : (s.takeOut n m.place).closingIndexes = s.closingIndexes := State.closingIndexes_congr (by simp)
  refine ⟨⟨by simpa, by simpa, by simpa, by simpa⟩, ?_, ?_, ?_, by rw [hmsg]; exact hplaces, ?_, ?_⟩
  · exact h5.congr (by rw [State.takeOut_stu]; exact Stu.sameFrame.refl _) (by simp) (by simp) (by simp)
      (by simp) (by simp)
  · simpa [hr] using h6
  · simpa [hr] using h7
  · simpa [hr, hmsg] using h8
  · simpa [hr, hc] using h9

end State.Kept

/-! ### Settlement -/

/-- What a settlement writes of the owner (R64 to R67). -/
theorem Record.settle_writes (r : Record) (e : Ending) (m : Message) (period : Nat) :
    ∃ plan charge saturated used delivered chars, r.settle e m period =
      { r with pending := r.pending - m.charge, plan, charge, saturated, used, delivered, chars } := by
  have hreturn : ∀ x : Record, ∃ used, x.returnPage m period = { x with used } := by
    intro x
    unfold Record.returnPage
    split <;> exact ⟨_, rfl⟩
  obtain ⟨used, hused⟩ := hreturn { r with pending := r.pending - m.charge }
  cases e with
  | delivered => exact ⟨_, _, _, _, _, _, rfl⟩
  | cancelled =>
    simp only [Record.settle]
    split
    · exact ⟨_, _, _, _, _, _, rfl⟩
    · rw [hused]; exact ⟨_, _, _, _, _, _, rfl⟩
  | abandoned | flushed => simp only [Record.settle]; rw [hused]; exact ⟨_, _, _, _, _, _, rfl⟩

section
variable (r : Record) (e : Ending) (m : Message) (period : Nat)

theorem Record.settle_pending : (r.settle e m period).pending = r.pending - m.charge := by
  obtain ⟨_, _, _, _, _, _, h⟩ := r.settle_writes e m period; rw [h]

theorem Record.settle_number : (r.settle e m period).number = r.number := by
  obtain ⟨_, _, _, _, _, _, h⟩ := r.settle_writes e m period; rw [h]

theorem Record.settle_address : (r.settle e m period).address = r.address := by
  obtain ⟨_, _, _, _, _, _, h⟩ := r.settle_writes e m period; rw [h]

theorem Record.settle_closing : (r.settle e m period).closing = r.closing := by
  obtain ⟨_, _, _, _, _, _, h⟩ := r.settle_writes e m period; rw [h]

end

/-- The owner's record after the settlement and the freeing of one of its slots. -/
def Record.settled (r : Record) (e : Ending) (n : Nat) (m : Message) (period : Nat) : Record :=
  { r.settle e m period with live := r.live.erase n, held := r.held.erase n }

theorem State.record?_settle_fun {s : State} {e : Ending} {n : Nat} {m : Message} {r : Record}
    (hm : s.message? n = some m) (hr : s.record? m.owner = some r) :
    (s.settle e n).record? = Function.update s.record? m.owner (some (r.settled e n m s.pdu.period)) := by
  funext j
  by_cases hj : j = m.owner
  · subst hj; simp [State.record?_settle_owner hm hr, Record.settled]
  · simp [hj, State.record?_settle_other hm hj]

theorem State.message?_settle_fun (s : State) (e : Ending) (n : Nat) :
    (s.settle e n).message? = Function.update s.message? n none := by
  funext k
  by_cases hk : k = n
  · subst hk; simp [State.message?_settle_same]
  · simp [hk, State.message?_settle_other s e hk]

/-- The store is in low water after a freeing exactly when it was, but from 64 to 65 it leaves it (R36). -/
theorem State.raiseFree_lowWater (s : State) :
    s.raiseFree.msu.lowWater = if s.msu.freeCount = Config.lowWater then false else s.msu.lowWater := by
  unfold State.raiseFree; split <;> simp

theorem State.settle_lowWater {s : State} {e : Ending} {n : Nat} {m : Message} (hm : s.message? n = some m) :
    (s.settle e n).msu.lowWater = if s.msu.freeCount = Config.lowWater then false else s.msu.lowWater := by
  simp [State.settle_eq hm, State.freeSlot_eq, State.raiseFree_lowWater, State.putSlot]

theorem State.Rising.updateRecord {s : State} (h : s.Rising) (i : Nat) (f : Record → Record) :
    (s.updateRecord i f).Rising := by
  unfold State.updateRecord
  split
  · exact h.putRecord _ _
  · exact h

theorem State.Rising.congr {s t : State} (h : s.Rising) (hstu : t.stu = s.stu) (hslots : t.msu.slots = s.msu.slots) :
    t.Rising := by
  obtain ⟨h1, h2, h3, h4⟩ := h
  constructor <;> simpa only [hstu, hslots]

theorem State.raiseFree_slots (s : State) : s.raiseFree.msu.slots = s.msu.slots := by
  unfold State.raiseFree; split <;> simp

theorem State.Rising.settle {s : State} (h : s.Rising) (e : Ending) (n : Nat) : (s.settle e n).Rising := by
  cases hm : s.message? n with
  | none => rw [State.settle_free hm]; exact h
  | some m =>
    rw [State.settle_eq hm, State.freeSlot_eq]
    have hout : (s.takeOut n m.place).Rising := h.congr (by simp) (by simp)
    refine State.Rising.congr (((hout.updateRecord m.owner fun r => r.settle e m s.pdu.period).updateRecord m.owner
      fun r => { r with live := r.live.erase n, held := r.held.erase n }).putSlot n
      { ((s.takeOut n m.place).updateRecord m.owner fun r => r.settle e m s.pdu.period).slot n with message := none })
      (by simp) ?_
    rw [State.raiseFree_slots]

/-- A settlement of a slot that is out of its place, or leaves it here, keeps the invariant; the freeing of the owner
may then be due (R41, R42). -/
theorem State.Kept.settleOut {s : State} {out : List Nat} {loose : Option Nat} {n : Nat} {m : Message} (e : Ending)
    (h : (s.takeOut n m.place).Kept (n :: out) loose) (hm : s.message? n = some m)
    (hl : loose = none ∨ loose = some m.owner) : (s.settle e n).Kept out (some m.owner) := by
  have hmsgOut : (s.takeOut n m.place).message? = s.message? := State.message?_eq (by simp)
  have hrecOut : (s.takeOut n m.place).record? = s.record? := State.record?_eq (by simp)
  obtain ⟨r, hr, -⟩ := h.owner (hmsgOut ▸ hm)
  have hnd := h.owner_not_due (hmsgOut ▸ hm) hr
  rw [hrecOut] at hr
  have hrec := State.record?_settle_fun (e := e) hm hr
  have hmsg := State.message?_settle_fun s e n
  have hframe := s.settle_frame e n
  obtain ⟨hnb, hab⟩ := hframe.bucket
  obtain ⟨hfree, hcount, -⟩ := State.settle_free_list (e := e) hm
  obtain ⟨hdsu, haru⟩ := State.settle_places (e := e) hm
  have hclosing : (s.settle e n).closingIndexes = (s.takeOut n m.place).closingIndexes :=
    State.closingIndexes_congr (by simp)
  have hcl : (r.settled e n m s.pdu.period).closing = r.closing := Record.settle_closing r e m s.pdu.period
  have hst : (r.settled e n m s.pdu.period).state = r.state := Record.settle_state r e m s.pdu.period
  obtain ⟨hstate, hcap, hrf, hrc, hni, hai, -⟩ := hframe
  obtain ⟨hrising, ⟨hrecords, hslots, hready, hempty⟩, hnumbers, haddresses, hplaces, howners, hclosings⟩ := h
  rw [hrecOut] at howners hclosings hnumbers haddresses hrecords hempty
  rw [hmsgOut] at howners hplaces hslots
  rw [State.takeOut_stu] at hnumbers haddresses hrecords hempty hready
  rw [State.takeOut_msu] at hslots hready
  refine ⟨(hrising.congr (t := s) (by simp) (by simp)).settle e n, ⟨?_, ?_, ?_, ?_⟩, ?_, ?_, ?_, ?_, ?_⟩
  · rw [hrf, hrc, hrec]; exact hrecords.congr (isSome_update hr)
  · rw [hfree, hcount, hmsg]; exact hslots.push (by simp [hm])
  · rw [hstate, hrf, hcap, hfree, hcount, State.settle_lowWater hm]
    intro hn
    obtain ⟨h1, h2, h3⟩ := hready hn
    refine ⟨h1, h2, ?_⟩
    rw [h3]
    split
    next h64 => rw [h64]; rfl
    next h64 => rw [decide_eq_decide]; omega
  · rw [hstate]; intro hn; have := hempty hn m.owner; simp [hr] at this
  · rw [hrec, hnb, hni]
    exact hnumbers.change hr (by simp only [hst]) (Record.settle_number r e m s.pdu.period)
  · rw [hrec, hab, hai]
    exact haddresses.change hr Iff.rfl (Record.settle_address r e m s.pdu.period)
  · rw [hmsg, placesOf_freed, hdsu, haru]; exact hplaces
  · rw [hrec, hmsg]
    exact howners.free hm hr rfl rfl (Record.settle_pending r e m s.pdu.period)
  · rw [hrec, hclosing]
    rcases hl with rfl | rfl
    · exact hclosings.loosen hr hnd hcl
    · exact hclosings.changeLoose hr fun hc => absurd (hclosings.due hr (hcl ▸ hc)) hnd

/-- A settlement of a slot in its place. -/
theorem State.Kept.settle {s : State} {out : List Nat} {loose : Option Nat} {n : Nat} {m : Message} (e : Ending)
    (h : s.Kept out loose) (hm : s.message? n = some m) (hn : n ∉ out) (hl : loose = none ∨ loose = some m.owner) :
    (s.settle e n).Kept out (some m.owner) :=
  (h.takeOut hm hn).settleOut e hm hl

/-! ### The freeing of a record -/

section
variable {s t : State} {out : List Nat} {i : Nat} {r : Record}

theorem State.freeingDue_iff (hr : s.record? i = some r) : s.freeingDue i = true ↔ r.Due := by
  simp [State.freeingDue, hr, Record.Due]

/-- A record whose freeing is not due is looked at and left. -/
theorem State.Kept.tighten (h : s.Kept out (some i)) (hd : s.freeingDue i = false) : s.Kept out none := by
  refine { h with closings := h.closings.tighten fun r hr hdue => ?_ }
  rw [(State.freeingDue_iff hr).mpr hdue] at hd; cases hd

theorem State.Kept.closeRecord {loose : Option Nat} (h : s.Kept out loose) (hr : s.record? i = some r) :
    (s.closeRecord i r).Kept out loose := by
  refine (h.putRecord hr (r.sameStore_closePeriod s.pdu.period)).congr ?_
  simp [State.storePart, State.closeRecord, State.closingIndexes, State.putRecord]

theorem State.Kept.touch {loose : Option Nat} {anew : Bool} (h : s.Kept out loose) (ht : s.touch anew i = some t) :
    t.Kept out loose := by
  rcases s.touch_cases anew i with ⟨-, h1⟩ | ⟨r, -, -, h1⟩ | ⟨r, hr, -, -, h1⟩ | ⟨r, -, -, -, h1⟩ <;> rw [h1] at ht <;>
    cases ht
  · exact h
  · exact h
  · exact h.closeRecord hr

/-- A record that is due leaves the address index and the table (R24). -/
theorem State.Kept.releaseRecord (h : s.Kept out (some i)) (hr : s.record? i = some r) (hd : r.Due) :
    (s.releaseRecord i r).Kept out none := by
  obtain ⟨⟨h1, h2, h3, h4⟩, ⟨h5, h6, h7, h8⟩, h9, h10, h11, h12, h13⟩ := h
  have hrec : (s.releaseRecord i r).record? = Function.update s.record? i none := by
    funext j
    by_cases hj : j = i
    · subst hj; simp
    · simp [hj]
  have hmsg : (s.releaseRecord i r).message? = s.message? := State.message?_eq (by simp)
  have hclosing : (s.releaseRecord i r).closingIndexes = s.closingIndexes := State.closingIndexes_congr (by simp)
  have hstu : (s.releaseRecord i r).stu = { s.stu with
      addressIndex := putChain s.stu.addressIndex (s.stu.addressBucket r.address)
        ((chainAt s.stu.addressIndex (s.stu.addressBucket r.address)).erase i)
      records := s.stu.records.drop i, free := s.stu.free.push i, freeCount := s.stu.freeCount + 1 } := by
    simp [State.releaseRecord, State.unlinkAddress, State.dropRecord]
  refine ⟨⟨?_, ?_, ?_, ?_⟩, ⟨?_, ?_, ?_, ?_⟩, ?_, ?_, ?_, ?_, ?_⟩
  · rw [hstu]; exact Sparse.rising_drop h1
  · simpa using h2
  · rw [hstu]; exact h3
  · rw [hstu]; exact putChain_rising h4
  · rw [hstu, hrec]; exact h5.push (by simp [hr])
  · simpa [hmsg] using h6
  · simpa [hstu, FreeList.push] using h7
  · rw [hstu]; intro hn; have := h8 hn i; simp [hr] at this
  · rw [hrec, hstu]; exact h9.removeUnlisted hr (by simp [hd.1])
  · rw [hrec, hstu]; simp only [chainAt_putChain_fun]; exact h10.remove hr trivial
  · rw [hmsg]; simpa using h11
  · rw [hrec, hmsg]; exact h12.dropRecord hr hd.2
  · rw [hrec, hclosing]; exact h13.dropRecord

theorem State.storePart_writeEntry (s : State) (e : Entry) : (s.writeEntry e).storePart = s.storePart := by
  simp [State.storePart, State.closingIndexes]

theorem State.storePart_countFreed (s : State) (holder : Holder) : (s.countFreed holder).storePart = s.storePart := by
  unfold State.countFreed; split <;> rfl

/-- The closing entry of a record that is due, written: the record is FREE (R24, R166). -/
theorem State.Kept.writeClosing {anew : Bool} {holder : Holder} (h : s.Kept out (some i)) (hr : s.record? i = some r)
    (hd : r.Due) (hw : s.writeClosing anew i holder = some t) : t.Kept out none := by
  rcases s.writeClosing_cases anew i holder with ⟨h0, -⟩ | ⟨x, h0, -, -, h1⟩ | ⟨x, h0, -, -, h1⟩ | ⟨x, -, -, h1⟩
  · rw [hr] at h0; cases h0
  · rw [hr] at h0; cases h0
    rw [h1] at hw; cases hw
    refine State.Kept.congr ?_ (State.storePart_countFreed _ _)
    exact (h.congr (State.storePart_writeEntry s _)).releaseRecord (by simpa using hr) hd
  · rw [hr] at h0; cases h0
    rw [h1] at hw; cases hw
    refine State.Kept.congr ?_ (State.storePart_countFreed _ _)
    exact ((h.closeRecord hr).congr (State.storePart_writeEntry _ _)).releaseRecord (by simp) hd
  · rw [h1] at hw; cases hw

/-- A closing entry begins to wait, or goes on waiting at the head (R164, R166). -/
theorem State.Kept.waitClosing {anew : Bool} {holder : Holder} (h : s.Kept out (some i)) (hr : s.record? i = some r)
    (hc : r.closing = true) : (s.wait anew (.closing i holder)).Kept out none := by
  obtain ⟨⟨h1, h2, h3, h4⟩, ⟨h5, h6, h7, h8⟩, h9, h10, h11, h12, h13⟩ := h
  refine ⟨⟨h1, h2, h3, h4⟩, ⟨h5, h6, h7, h8⟩, h9, h10, h11, h12, h13.wait hr hc ?_⟩
  cases anew <;> simp [State.closingIndexes, State.wait]

/-- The freeing of a record begins where it is due: made, or waiting (R24). -/
theorem State.Kept.beginFreeing {anew : Bool} {holder : Holder} (h : s.Kept out (some i)) (hd : s.freeingDue i = true) :
    (s.beginFreeing anew i holder).1.Kept out none := by
  obtain ⟨r, hr, hdue⟩ : ∃ r, s.record? i = some r ∧ r.Due := by
    cases hr : s.record? i with
    | none => simp [State.freeingDue, hr] at hd
    | some r => exact ⟨r, rfl, (State.freeingDue_iff hr).mp hd⟩
  have hmark : (s.putRecord i { r with closing := true }).Kept out (some i) := by
    have hrec := State.record?_putRecord_fun s i { r with closing := true }
    refine ⟨h.rising.putRecord i _, ?_, ?_, ?_, h.places, ?_, ?_⟩
    · exact h.lists.congr (State.putRecord_sameFrame s i _) rfl rfl rfl (by rw [hrec]; exact isSome_update hr)
        fun _ => rfl
    · rw [hrec]; exact h.numbers.change hr Iff.rfl rfl
    · rw [hrec]; exact h.addresses.change hr Iff.rfl rfl
    · rw [hrec]; exact h.owners.changeRecord hr ⟨rfl, rfl, rfl⟩
    · rw [hrec]; exact h.closings.changeLoose hr fun _ => hdue
  have hr' : (s.putRecord i { r with closing := true }).record? i = some { r with closing := true } := by simp
  simp only [State.beginFreeing, State.updateRecord_eq hr]
  split
  next hw => exact hmark.writeClosing hr' hdue hw
  next => exact hmark.waitClosing hr' rfl

/-- Step 5 of a settlement: the freeing of the owner, where it is due (R41). -/
theorem State.Kept.freeOwner {anew : Bool} {holder : Holder} (h : s.Kept out (some i)) :
    (s.freeOwner anew i holder).1.Kept out none := by
  unfold State.freeOwner
  split
  next hd => exact h.beginFreeing hd
  next hd => exact h.tighten (by simpa using hd)

end

end Sys2Proof.Machine
end


section
namespace Sys2Proof.Machine
open Sys2Proof

/-! ### Slots that join a place -/

theorem placesOf_join {message : Nat → Option Message} {out : List Nat} {n : Nat} {m : Message}
    (hm : message n = some m) (hn : n ∉ out) :
    placesOf message out = Function.update (placesOf message (n :: out)) n (some m.place) := by
  have h := placesOf_placed (message := message) (m' := m) hn
  rwa [Function.update_eq_self_iff.mpr hm.symm] at h

namespace State.Kept
variable {s t : State} {out out' : List Nat} {loose : Option Nat} {n : Nat} {m : Message}

/-- A change of the places alone. -/
theorem withPlaces (h : s.Kept out loose) (hstu : t.stu = s.stu) (hmsu : t.msu = s.msu)
    (hw : t.pdu.waiters = s.pdu.waiters)
    (hp : Places (placesOf s.message? out') t.dsu.queues.slots (t.dsu.staging.map (·.slot))
      (t.dsu.sending.map (·.slot)) t.aru.timed) : t.Kept out' loose := by
  have hr : t.record? = s.record? := State.record?_eq (by rw [hstu])
  have hm : t.message? = s.message? := State.message?_eq (by rw [hmsu])
  obtain ⟨h1, h2, h3, h4, -, h5, h6⟩ := h
  refine ⟨h1.congr hstu (by rw [hmsu]), ?_, by rwa [hr, hstu], by rwa [hr, hstu], by rwa [hm], by rwa [hr, hm], ?_⟩
  · exact h2.congr (by rw [hstu]; exact Stu.sameFrame.refl _) (by rw [hmsu]) (by rw [hmsu]) (by rw [hmsu])
      (by simp [hr]) (by simp [hm])
  · rw [hr, State.closingIndexes_congr hw]; exact h6

/-- A slot leaves a queue. -/
theorem dequeue {q : Queues} {rotation : List QueueName} (h : s.Kept out loose)
    (hq : s.dsu.queues.slots.Perm (n :: q.slots)) :
    ({ s with dsu := { s.dsu with queues := q, rotation := rotation } } : State).Kept (n :: out) loose := by
  refine h.withPlaces rfl rfl rfl ?_
  rw [placesOf_cons]
  exact h.places.dequeue hq

theorem enqueue (h : s.Kept (n :: out) loose) (hm : s.message? n = some m) (hp : m.place = .queued) (hn : n ∉ out)
    (q : QueueName) : (s.enqueue q n).Kept out loose := by
  refine h.withPlaces rfl rfl rfl ?_
  rw [placesOf_join hm hn, hp]
  exact h.places.enqueue (by simp [placesOf]) (Queues.slots_set_append _ q n)

theorem requeue (h : s.Kept (n :: out) loose) (hm : s.message? n = some m) (hp : m.place = .queued) (hn : n ∉ out)
    (q : QueueName) : (s.requeue q n).Kept out loose := by
  refine h.withPlaces rfl rfl rfl ?_
  rw [placesOf_join hm hn, hp]
  exact h.places.enqueue (by simp [placesOf]) (Queues.slots_set_cons _ q n)

/-- A slot that joins the timed list with the place it has there. -/
theorem joinTimed {l : List Nat} (h : s.Kept (n :: out) loose) (hm : s.message? n = some m)
    (hp : m.place.isTimed = true) (hn : n ∉ out) (hl : l.Perm (n :: s.aru.timed)) :
    ({ s with aru := { s.aru with timed := l } } : State).Kept out loose := by
  refine h.withPlaces rfl rfl rfl ?_
  rw [placesOf_join hm hn]
  exact h.places.time (by simp [placesOf]) hl hp

/-- A slot queued in its message and in no place stands in no queue. -/
theorem takeOut_queued (h : s.Kept (n :: out) loose) (hp : m.place = .queued) : s.takeOut n m.place = s := by
  have hnot : ∀ q, n ∉ s.dsu.queues.get q := fun q hq => by
    have := (h.places.queued_iff n).mp (Queues.mem_slots_of_get hq)
    simp [placesOf] at this
  simp only [hp, State.takeOut, Queues.erase_not_mem hnot]

/-- A slot of a queue is a message whose place is the queue. -/
theorem queued_message {q : QueueName} (h : s.Kept out loose) (hn : n ∈ s.dsu.queues.get q) :
    n ∉ out ∧ ∃ m, s.message? n = some m ∧ m.place = .queued :=
  placesOf_eq_some ((h.places.queued_iff n).mp (Queues.mem_slots_of_get hn))

theorem popQueue {q : QueueName} {rest : List Nat} (h : s.Kept out loose) (hq : s.dsu.queues.get q = n :: rest) :
    (s.popQueue q n rest).Kept (n :: out) loose := by
  obtain ⟨-, m, hm, -⟩ := h.queued_message (n := n) (q := q) (by simp [hq])
  exact (h.dequeue (Queues.slots_set_tail hq)).updateMessage hm ⟨rfl, rfl, rfl, rfl⟩ (.inl rfl)

theorem stage {r : Record} {x : Message} (h : s.Kept (n :: out) loose) (hm : s.message? n = some m)
    (hp : m.place = .queued) (hn : n ∉ out) (hs : s.dsu.staging = none) : (s.stage n x r).Kept out loose := by
  have hmsg := State.message?_updateMessage_fun hm fun m => { m with place := .staged }
  have h' := h.updateMessage (f := fun m => { m with place := .staged }) hm
    ⟨rfl, rfl, rfl, by simp [Message.isHeld, hp]⟩
    (.inr (by simp))
  refine h'.withPlaces rfl rfl rfl ?_
  have hplaces := h'.places
  simp only [State.updateMessage_dsu, hs] at hplaces
  rw [placesOf_join (m := { m with place := .staged }) (by rw [hmsg]; simp) hn]
  simpa [State.stage] using hplaces.stage (n := n) (by simp [placesOf])

/-- The staged slot moves to the empty sending buffer (R120). -/
theorem move (h : s.Kept out loose) (hs : s.dsu.sending = none) : s.move.Kept out loose := by
  cases hst : s.dsu.staging with
  | none => simpa [State.move, hst] using h
  | some b =>
    obtain ⟨hn, m, hm, hp⟩ := placesOf_eq_some ((h.places.staged_iff b.slot).mp (by simp [hst]))
    have hout : (s.takeOut b.slot m.place).Kept (b.slot :: out) loose := h.takeOut hm hn
    have hdsu : (s.takeOut b.slot m.place).dsu = { s.dsu with staging := none } := by rw [hp]; rfl
    have haru : (s.takeOut b.slot m.place).aru = s.aru := by rw [hp]; rfl
    have hmOut : (s.takeOut b.slot m.place).message? b.slot = some m := by simpa using hm
    have hmsg := State.message?_updateMessage_fun hmOut fun m => { m with place := .sending }
    have h' := hout.updateMessage (f := fun m => { m with place := .sending }) hmOut
      ⟨rfl, rfl, rfl, by simp [Message.isHeld, hp]⟩ (.inr (by simp))
    have hplaces := h'.places
    simp only [State.updateMessage_dsu, State.updateMessage_aru, hdsu, haru, hs, Option.map_none] at hplaces
    rw [State.move_eq hst]
    refine h'.withPlaces (by simp) ?_ (by simp) ?_
    · simp [State.updateMessage_eq hm, State.updateMessage_eq hmOut, State.putSlot]
    · rw [placesOf_join (m := { m with place := .sending }) (by rw [hmsg]; simp) hn]
      simpa using hplaces.send (n := b.slot) (by simp [placesOf])

end State.Kept

/-! ### The timed list and parking -/

theorem insertByDeadline_perm (f : Nat → Tick) (n : Nat) (d : Tick) (l : List Nat) :
    (insertByDeadline f n d l).Perm (n :: l) := by
  induction l with
  | nil => exact List.Perm.refl _
  | cons x l ih =>
    unfold insertByDeadline
    split
    · exact (ih.cons x).trans (List.Perm.swap n x l)
    · exact List.Perm.refl _

namespace State.Kept
variable {s : State} {out : List Nat} {loose : Option Nat} {n : Nat} {m : Message} {r : Record}

/-- A slot in no place that is not HELD joins the timed list AWAITING (R124, R142). -/
theorem placeAwaiting (h : s.Kept (n :: out) loose) (hm : s.message? n = some m) (hh : m.isHeld = false) (hn : n ∉ out)
    (d : Tick) : (s.placeTimed n (.awaiting d) d).Kept out loose := by
  have hmsg := State.message?_updateMessage_fun hm fun m => { m with place := .awaiting d }
  have h' := h.updateMessage (f := fun m => { m with place := .awaiting d }) hm
    ⟨rfl, rfl, rfl, by rw [hh]; rfl⟩ (.inr (by simp))
  exact h'.joinTimed (m := { m with place := .awaiting d }) (by rw [hmsg]; simp) rfl hn
    (by simpa using insertByDeadline_perm s.deadlineOf n d s.aru.timed)

/-- A slot in no place becomes HELD, its owner's held list having room (R146). -/
theorem hold (h : s.Kept (n :: out) loose) (hm : s.message? n = some m) (hh : m.isHeld = false) (hn : n ∉ out)
    (hr : s.record? m.owner = some r) (hlen : r.held.length < Config.heldLimit) :
    (s.hold n m.owner).Kept out loose := by
  generalize hd : s.deadlineIn (s.aru.hold * Config.minuteTicks) = d
  have hrec : (s.hold n m.owner).record? =
      Function.update s.record? m.owner (some { r with held := r.held ++ [n] }) := by
    funext j
    by_cases hj : j = m.owner
    · subst hj; simp [State.record?_hold_owner, hr]
    · simp [hj, State.record?_hold_other]
  have hmsg : (s.hold n m.owner).message? = Function.update s.message? n (some { m with place := .held d }) := by
    funext k
    by_cases hk : k = n
    · subst hk; simp [State.message?_hold_same, hm, hd]
    · simp [hk, State.message?_hold_other]
  obtain ⟨hframe, hfree, hcount, -, -⟩ := s.hold_frame n m.owner
  obtain ⟨hnb, hab⟩ := hframe.bucket
  have hrising : (s.hold n m.owner).Rising := by
    have hup := h.rising.updateRecord m.owner fun r => { r with held := r.held ++ [n] }
    have hm' : (s.updateRecord m.owner fun r => { r with held := r.held ++ [n] }).message? n = some m := by
      simpa using hm
    refine (hup.putSlot n { (s.updateRecord m.owner fun r => { r with held := r.held ++ [n] }).slot n with
      message := some { m with place := .held d } }).congr ?_ ?_ <;>
      simp [State.hold, State.placeTimed, State.updateMessage_eq hm', hd]
  have hlists : (s.hold n m.owner).Lists := by
    refine h.lists.congr hframe hfree hcount ?_ (by rw [hrec]; exact isSome_update hr)
      (by rw [hmsg]; exact isSome_update hm)
    have hm' : (s.updateRecord m.owner fun r => { r with held := r.held ++ [n] }).message? n = some m := by
      simpa using hm
    simp [State.hold, State.placeTimed, State.updateMessage_eq hm', State.putSlot]
  have hclosing : (s.hold n m.owner).closingIndexes = s.closingIndexes := State.closingIndexes_congr (by simp)
  obtain ⟨-, -, -, -, hni, hai, -⟩ := hframe
  refine ⟨hrising, hlists, ?_, ?_, ?_, ?_, ?_⟩
  · rw [hrec, hnb, hni]; exact h.numbers.change hr Iff.rfl rfl
  · rw [hrec, hab, hai]; exact h.addresses.change hr Iff.rfl rfl
  · rw [hmsg, placesOf_placed hn]
    have ht : (s.hold n m.owner).aru.timed.Perm (n :: s.aru.timed) := by
      simpa [State.hold, State.placeTimed] using insertByDeadline_perm _ n _ s.aru.timed
    simpa using h.places.time (p := .held d) (by simp [placesOf]) ht rfl
  · rw [hrec, hmsg]
    exact h.owners.hold hm hh hr hlen rfl rfl rfl rfl rfl rfl rfl
  · rw [hrec, hclosing]; exact h.closings.change hr rfl Iff.rfl

end State.Kept

end Sys2Proof.Machine
end


section
namespace Sys2Proof.Machine
open Sys2Proof

/-! ### What leaves all that the store reads -/

section
variable {s t : State}

/-- A change of neither table, of no place and of no waiter. -/
theorem State.storePart_congr (h1 : t.stu = s.stu) (h2 : t.msu = s.msu) (h3 : t.dsu.queues = s.dsu.queues)
    (h4 : t.dsu.staging = s.dsu.staging) (h5 : t.dsu.sending = s.dsu.sending) (h6 : t.aru.timed = s.aru.timed)
    (h7 : t.pdu.waiters = s.pdu.waiters) : t.storePart = s.storePart := by
  simp [State.storePart, State.closingIndexes, h1, h2, h3, h4, h5, h6, h7]

@[simp] theorem State.storePart_raise (s : State) (k : NoticeKind) : (s.raise k).storePart = s.storePart := by
  apply State.storePart_congr <;> simp

@[simp] theorem State.storePart_respond (s : State) (r : Response) : (s.respond r).storePart = s.storePart := rfl

@[simp] theorem State.storePart_complete (s : State) (place : Nat) (result : Result) (params : List Byte) :
    (s.complete place result params).storePart = s.storePart := by
  apply State.storePart_congr <;> simp

@[simp] theorem State.storePart_popReport (s : State) (l : Link) : (s.popReport l).storePart = s.storePart := by
  apply State.storePart_congr <;> simp

@[simp] theorem State.storePart_putReceiver (s : State) (l : Link) (r : Receiver) :
    (s.putReceiver l r).storePart = s.storePart := by
  apply State.storePart_congr <;> simp

@[simp] theorem State.storePart_putLine (s : State) (n : Fin 4) (l : Line) : (s.putLine n l).storePart = s.storePart :=
  rfl

@[simp] theorem State.storePart_resumeSweep (s : State) : s.resumeSweep.storePart = s.storePart := by
  unfold State.resumeSweep; split <;> rfl

@[simp] theorem State.storePart_restoreZones (s : State) : s.restoreZones.storePart = s.storePart := by
  unfold State.restoreZones
  split
  · rw [State.storePart_raise]; rfl
  · rfl

@[simp] theorem State.storePart_markOutage (s : State) : s.markOutage.storePart = s.storePart := by
  unfold State.markOutage
  split
  · rw [State.storePart_raise]; rfl
  · rfl

@[simp] theorem State.storePart_completeReset (s : State) : s.completeReset.storePart = s.storePart := by
  rcases s.completeReset_cases with ⟨-, h⟩ | ⟨f, -, -, h⟩ <;> rw [h]
  rw [State.storePart_complete]; rfl

@[simp] theorem State.storePart_countFlushed (s : State) : s.countFlushed.storePart = s.storePart := rfl

@[simp] theorem State.storePart_advanceCursor (s : State) : s.advanceCursor.storePart = s.storePart := rfl

/-- An operation other than a closing entry begins to wait. -/
theorem State.storePart_wait (s : State) (anew : Bool) {w : Waiter} (hw : ∀ i holder, w ≠ .closing i holder) :
    (s.wait anew w).storePart = s.storePart := by
  have h : (s.wait anew w).closingIndexes = s.closingIndexes := by
    cases w with
    | closing i holder => exact absurd rfl (hw i holder)
    | _ => cases anew <;> simp [State.closingIndexes, State.wait]
  simpa [State.storePart] using h

end

/-! ### Parking -/

namespace State.Kept
variable {s : State} {out : List Nat} {i n : Nat} {m : Message} {r : Record}

/-- A record whose freeing is not due may be looked at. -/
theorem look (h : s.Kept out none) (hr : s.record? i = some r) (hd : ¬ r.Due) : s.Kept out (some i) := by
  refine { h with closings := ?_ }
  have := h.closings.loosen hr hd rfl
  rwa [Function.update_eq_self_iff.mpr hr.symm] at this

/-- The owner of a live slot needs no look. -/
theorem tightenOwner (h : s.Kept out (some m.owner)) (hm : s.message? n = some m) : s.Kept out none :=
  { h with closings := h.closings.tighten fun _ hr => h.owner_not_due hm hr }

/-- The eviction that a parking makes leaves room in the owner's held list (R146). -/
theorem evictOldest (h : s.Kept [n] none) (hm : s.message? n = some m) (hh : m.isHeld = false) :
    (s.evictOldest m.owner).Kept [n] (some m.owner) ∧ (s.evictOldest m.owner).message? n = some m ∧
      ∃ r, (s.evictOldest m.owner).record? m.owner = some r ∧ r.held.length < Config.heldLimit := by
  obtain ⟨r, hr, -⟩ := h.owner hm
  by_cases hlen : r.held.length < Config.heldLimit
  · rw [State.evictOldest_room hr hlen]
    exact ⟨h.look hr (h.owner_not_due hm hr), hm, r, hr, hlen⟩
  · obtain ⟨oldest, rest, hheld⟩ : ∃ oldest rest, r.held = oldest :: rest := by
      cases hl : r.held with
      | nil => simp [hl, Config.heldLimit] at hlen
      | cons oldest rest => exact ⟨oldest, rest, rfl⟩
    have hmax := h.owners.held_length hr
    simp only [hheld, List.length_cons, Config.heldLimit] at hlen hmax
    obtain ⟨x, hx, hxo, hxh⟩ := (h.owners.held_iff hr oldest).mp (by simp [hheld])
    have hne : oldest ≠ n := by rintro rfl; rw [hm] at hx; cases hx; rw [hh] at hxh; cases hxh
    rw [State.evictOldest_full hr hheld (by omega), ← hxo]
    rw [← hxo] at hr
    exact ⟨h.settle .abandoned hx (by simpa using hne) (.inl rfl),
      by rw [State.message?_settle_other _ _ hne.symm, hm], _, State.record?_settle_owner hx hr,
      by simp [hheld, Config.heldLimit]; omega⟩

/-- After a parking the freeing of the owner may be due (R146). -/
theorem park (h : (s.takeOut n m.place).Kept [n] none) (hm : s.message? n = some m) (hh : m.isHeld = false) :
    (s.park n).Kept [] (some m.owner) := by
  rcases State.park_cases hm with ⟨-, hp⟩ | ⟨-, hp⟩ <;> rw [hp]
  · exact h.settleOut .abandoned hm (.inl rfl)
  · obtain ⟨hk, hms, r, hr, hlen⟩ := h.evictOldest (by simpa using hm) hh
    exact hk.hold hms hh (by simp) hr hlen

/-- The parking of a slot that is not released keeps the slot, so that the freeing of its owner is not due (R146). -/
theorem parkHeld (h : (s.takeOut n m.place).Kept [n] none) (hm : s.message? n = some m) (hh : m.isHeld = false)
    (hrel : m.released = false) : (s.park n).Kept [] none := by
  have hk := h.park hm hh
  rcases State.park_cases hm with ⟨hr, -⟩ | ⟨-, hp⟩
  · rw [hrel] at hr; cases hr
  · obtain ⟨-, hms, -⟩ := h.evictOldest (by simpa using hm) hh
    exact hk.tightenOwner (n := n) (m := { m with place := .held _ }) (by rw [hp, State.message?_hold_same, hms]; rfl)

end State.Kept

end Sys2Proof.Machine
end


section
namespace Sys2Proof.Machine
open Sys2Proof

/-! ### Takes, moves and the end of an event -/

/-- A move finds the sending buffer empty (R120). -/
theorem State.moveAllowed_sending {s : State} (hm : s.moveAllowed = true) : s.dsu.sending = none := by
  simp only [State.moveAllowed, Bool.and_eq_true, Option.isNone_iff_eq_none] at hm
  obtain ⟨⟨⟨⟨_, hsending⟩, _⟩, _⟩, _⟩ := hm
  exact hsending

/-- The slot at the head of the timed list that is due has a deadline (R143). -/
theorem State.dueHead_deadline {s : State} {n : Nat} {m : Message} (h : s.dueHead = some n) (hm : s.message? n = some m) :
    m.deadline.isSome = true := by
  simp only [State.dueHead] at h
  split at h
  next k rest _ =>
    cases hd : (s.message? k).bind (·.deadline) with
    | none => simp [hd] at h
    | some d =>
      have hk : k = n := by
        rw [hd] at h
        dsimp only at h
        split at h
        · exact Option.some_inj.mp h
        · cases h
      rw [hk, hm, Option.bind_some] at hd
      simp [hd]
  next => cases h

namespace State.Kept
variable {s t : State} {anew : Bool}

/-- A touch-sweep leaves every slot. -/
theorem touch_message {i n : Nat} {m : Message} (ht : s.touch anew i = some t) (hm : s.message? n = some m) :
    t.message? n = some m := by
  obtain ⟨-, hmsu, -⟩ := State.touch_frame ht
  exact (State.message?_congr (by rw [hmsu]) n).trans hm

/-- The head of a queue, taken from it: in no place, its message with its origin queue set (R110, R111). -/
theorem popped {q : QueueName} {n : Nat} {rest : List Nat} {m : Message} (h : s.Kept [] none)
    (hq : s.dsu.queues.get q = n :: rest) (hm : s.message? n = some m) :
    m.place = .queued ∧ (s.popQueue q n rest).Kept [n] none ∧
      (s.popQueue q n rest).message? n = some { m with origin := q } ∧
      (s.popQueue q n rest).takeOut n m.place = s.popQueue q n rest := by
  obtain ⟨-, m', hm', hp⟩ := h.queued_message (n := n) (q := q) (by simp [hq])
  rw [hm] at hm'; cases hm'
  have hk := h.popQueue hq
  exact ⟨hp, hk, by rw [State.message?_popQueue_same, hm]; rfl, hk.takeOut_queued hp⟩

/-- The take of R111, with the staging buffer empty. -/
theorem take (h : s.Kept [] none) (hs : s.dsu.staging = none) : (s.take anew).Kept [] none := by
  rcases s.take_cases anew with ⟨-, ht⟩ | ⟨q, -, -, ht⟩ | ⟨q, n, rest, -, hq, hcase⟩
  · rwa [ht]
  · rwa [ht]
  obtain ⟨-, m, hm, -⟩ := h.queued_message (n := n) (q := q) (by simp [hq])
  obtain ⟨hp, hk, hms, hout⟩ := h.popped hq hm
  have hheld : m.isHeld = false := by simp [Message.isHeld, hp]
  rcases hcase with ⟨h0, -⟩ | ⟨m', hm', hcase⟩
  · rw [hm] at h0; cases h0
  rw [hm] at hm'; cases hm'
  rcases hcase with ⟨h0, -⟩ | ⟨r, hr, hcase⟩
  · obtain ⟨r, hr, -⟩ := h.owner hm; rw [hr] at h0; cases h0
  rcases hcase with ⟨-, ht⟩ | ⟨-, hps, ht⟩ | ⟨-, -, -, ht⟩ | ⟨-, -, u, hu, ht⟩ <;> rw [ht]
  · exact hk.stage hms hp (by simp) (by simpa using hs)
  · simp only [Record.parkSettles, Bool.or_eq_false_iff] at hps
    rw [← hout] at hk
    exact hk.parkHeld (m := { m with origin := q }) hms hheld hps.1
  · exact h.congr (State.storePart_wait s anew (by simp))
  · obtain ⟨-, -, -, -, hdsu, -⟩ := State.touch_frame hu
    obtain ⟨-, hku, hmsu, houtU⟩ := (h.touch hu).popped (by rwa [hdsu]) (touch_message hu hm)
    rw [← houtU] at hku
    exact (hku.park (m := { m with origin := q }) hmsu hheld).freeOwner

theorem dispatchLoop (h : s.Kept [] none) (k : Nat) : (Machine.dispatchLoop k s).Kept [] none := by
  induction k generalizing s with
  | zero => exact h
  | succ k ih =>
    unfold Machine.dispatchLoop
    split
    next hm => exact ih (h.move (State.moveAllowed_sending hm))
    next =>
      split
      next ht => exact ih (h.take (s.takeAllowed_iff.mp ht).1)
      next => exact h

theorem afterTraffic (h : s.Kept [] none) : s.afterTraffic.Kept [] none := by
  have hrestored : s.completeReset.restoreZones.Kept [] none := h.congr (by simp)
  have hdispatched : s.completeReset.restoreZones.dispatch.Kept [] none := hrestored.dispatchLoop _
  exact hdispatched.congr (by simp [State.afterTraffic])

/-! ### Frame completion -/

/-- The slot being sent. -/
theorem sending_message {b : Sending} (h : s.Kept [] none) (hb : s.dsu.sending = some b) :
    ∃ m, s.message? b.slot = some m ∧ m.place = .sending := by
  obtain ⟨-, hm⟩ := placesOf_eq_some ((h.places.sending_iff b.slot).mp (by simp [hb]))
  exact hm

theorem settleThenFree {n : Nat} {m : Message} {e : Ending} {holder : Holder} (h : s.Kept [] none)
    (hm : s.message? n = some m) : ((s.settle e n).freeOwner anew m.owner holder).1.Kept [] none :=
  (h.settle e hm (by simp) (.inl rfl)).freeOwner

theorem completeFrame (h : s.Kept [] none) : (s.completeFrame anew).Kept [] none := by
  unfold State.completeFrame
  split
  next => exact h
  next b hb =>
    obtain ⟨m, hm, hp⟩ := h.sending_message hb
    simp only [hm]
    split
    next =>
      unfold State.flushCompletion
      split
      next => exact h.congr (State.storePart_wait s anew (by simp))
      next t ht =>
        exact (((h.touch ht).settle .flushed (touch_message ht hm) (by simp) (.inl rfl)).congr (by simp)).freeOwner
    next =>
      have hafter : ∀ refused, (m.afterFrame refused).SameOwned m ∧ (m.afterFrame refused).place = .sending := by
        intro refused
        unfold Message.afterFrame
        split
        · exact ⟨⟨rfl, rfl, rfl, rfl⟩, hp⟩
        · exact ⟨⟨rfl, rfl, rfl, rfl⟩, hp⟩
      obtain ⟨hsame, hpa⟩ := hafter s.dsu.refusal
      split
      next e =>
        unfold State.settleCompletion
        split
        next => exact h.congr (State.storePart_wait s anew (by simp))
        next t ht =>
          have hmt := touch_message ht hm
          exact ((h.touch ht).updateMessage (f := fun _ => m.afterFrame s.dsu.refusal) hmt hsame
            (.inl (by rw [hpa, hp]))).settleThenFree (by simp [hmt])
      next =>
        have hout := h.takeOut hm (by simp)
        rw [hp] at hout
        have hmOut : (s.takeOut b.slot .sending).message? b.slot = some m := by simpa using hm
        have hheld : m.isHeld = false := by simp [Message.isHeld, hp]
        split
        next =>
          have hu := hout.updateMessage (f := fun _ => { m.afterFrame s.dsu.refusal with place := .queued }) hmOut
            ⟨hsame.owner, hsame.tag, hsame.charge, by rw [hheld]; rfl⟩ (.inr (by simp))
          exact hu.requeue (m := { m.afterFrame s.dsu.refusal with place := .queued })
            (by rw [State.message?_updateMessage_same, hmOut]; rfl) rfl (by simp) _
        next =>
          have hu := hout.updateMessage (f := fun _ => m.afterFrame s.dsu.refusal) hmOut hsame (.inr (by simp))
          exact hu.placeAwaiting (m := m.afterFrame s.dsu.refusal)
            (by rw [State.message?_updateMessage_same, hmOut]; rfl) (by rw [hsame.isHeld, hheld]) (by simp) _

/-! ### Expiry -/

theorem expire (h : s.Kept [] none) : (s.expire anew).Kept [] none := by
  unfold State.expire
  split
  next => exact h
  next n hdue =>
    split
    next => exact h
    next m hm =>
      split
      next => exact h
      next r hr =>
        split
        next =>
          split
          next => exact h.congr (State.storePart_wait s anew (by simp))
          next t ht => exact (h.touch ht).settleThenFree (touch_message ht hm)
        next hnotHeld =>
          have hdeadline := State.dueHead_deadline hdue hm
          obtain ⟨d, hp⟩ : ∃ d, m.place = .awaiting d := by
            cases hp : m.place with
            | awaiting d => exact ⟨d, rfl⟩
            | held d => exact absurd hp (hnotHeld d)
            | queued | staged | sending => simp [Message.deadline, hp] at hdeadline
          have hheld : m.isHeld = false := by simp [Message.isHeld, hp]
          have hout := h.takeOut hm (by simp)
          split
          next =>
            have hmOut : (s.takeOut n m.place).message? n = some m := by simpa using hm
            have hu := hout.updateMessage (f := fun m => { m with place := .queued }) hmOut
              ⟨rfl, rfl, rfl, by rw [hheld]; rfl⟩ (.inr (by simp))
            rw [hp] at hu hmOut
            exact hu.enqueue (m := { m with place := .queued })
              (by rw [State.message?_updateMessage_same, hmOut]; rfl) rfl (by simp) _
          next =>
            split
            next =>
              split
              next => exact h.congr (State.storePart_wait s anew (by simp))
              next t ht =>
                have hmt := touch_message ht hm
                exact (((h.touch ht).takeOut hmt (by simp)).park hmt hheld).freeOwner
            next hps =>
              simp only [Record.parkSettles, Bool.or_eq_true, not_or, Bool.not_eq_true] at hps
              exact hout.parkHeld hm hheld hps.1

end State.Kept

end Sys2Proof.Machine
end


section
namespace Sys2Proof.Machine
open Sys2Proof

/-! ### Reports -/

/-- What the release of a held slot writes in its message (R139). -/
def Message.release (m : Message) : Message := { m with place := .queued, attempts := 0, released := true }

/-- Held slots released one after another: each leaves the timed list for RETRY, and nothing else changes (R139). -/
theorem State.releaseSlots {s : State} {l : List Nat}
    (hp : Places (placesOf s.message? []) s.dsu.queues.slots (s.dsu.staging.map (·.slot))
      (s.dsu.sending.map (·.slot)) s.aru.timed)
    (hl : l.Nodup) (hh : ∀ n ∈ l, ∃ m, s.message? n = some m ∧ m.isHeld = true) :
    Places (placesOf (l.foldl State.releaseSlot s).message? []) (l.foldl State.releaseSlot s).dsu.queues.slots
      ((l.foldl State.releaseSlot s).dsu.staging.map (·.slot)) ((l.foldl State.releaseSlot s).dsu.sending.map (·.slot))
      (l.foldl State.releaseSlot s).aru.timed ∧
    (∀ k, (l.foldl State.releaseSlot s).message? k =
      if k ∈ l then (s.message? k).map Message.release else s.message? k) ∧
    (l.foldl State.releaseSlot s).stu = s.stu ∧ (l.foldl State.releaseSlot s).msu.free = s.msu.free ∧
    (l.foldl State.releaseSlot s).msu.freeCount = s.msu.freeCount ∧
    (l.foldl State.releaseSlot s).msu.lowWater = s.msu.lowWater ∧ (l.foldl State.releaseSlot s).pdu = s.pdu ∧
    (s.Rising → (l.foldl State.releaseSlot s).Rising) := by
  induction l generalizing s with
  | nil => exact ⟨hp, by simp, rfl, rfl, rfl, rfl, rfl, id⟩
  | cons n l ih =>
    obtain ⟨hn, hl⟩ := List.nodup_cons.mp hl
    obtain ⟨m, hm, hheld⟩ := hh n (by simp)
    obtain ⟨d, hpl⟩ : ∃ d, m.place = .held d := by
      cases hc : m.place <;> simp [Message.isHeld, hc] at hheld
      exact ⟨_, rfl⟩
    have hm' : ({ s with aru := { s.aru with timed := s.aru.timed.erase n } } : State).message? n = some m := hm
    have hslot : s.releaseSlot n = (({ s with aru := { s.aru with timed := s.aru.timed.erase n } } : State).putSlot n
        { s.slot n with message := some m.release }).enqueue .retry n := by
      simp only [State.releaseSlot, State.updateMessage_eq hm']
      rfl
    have hmsg : (s.releaseSlot n).message? = Function.update s.message? n (some m.release) := by
      rw [hslot]; exact State.message?_putSlot_fun _ _ _
    have hplaces : Places (placesOf (s.releaseSlot n).message? []) (s.releaseSlot n).dsu.queues.slots
        ((s.releaseSlot n).dsu.staging.map (·.slot)) ((s.releaseSlot n).dsu.sending.map (·.slot))
        (s.releaseSlot n).aru.timed := by
      have hout := hp.untime (placesOf_in hm (by simp)) (by rw [hpl]; rfl)
      rw [hmsg, placesOf_placed (by simp), placesOf_cons, hslot]
      exact hout.enqueue (by simp) (Queues.slots_set_append _ .retry n)
    obtain ⟨h1, h2, h3, h4, h5, h6, h7, h8⟩ := ih (s := s.releaseSlot n) hplaces hl fun k hk => by
      have hkn : k ≠ n := ne_of_mem_of_not_mem hk hn
      simpa [hmsg, hkn] using hh k (by simp [hk])
    refine ⟨h1, fun k => ?_, ?_, ?_, ?_, ?_, ?_, fun hr => h8 ?_⟩
    · rw [List.foldl_cons, h2, hmsg]
      by_cases hk : k = n
      · subst hk; simp [hn, hm]
      · simp [hk]
    · rw [List.foldl_cons, h3, hslot]; rfl
    · rw [List.foldl_cons, h4, hslot]; rfl
    · rw [List.foldl_cons, h5, hslot]; rfl
    · rw [List.foldl_cons, h6, hslot]; rfl
    · rw [List.foldl_cons, h7, hslot]; rfl
    · rw [hslot]
      exact (State.Rising.putSlot (hr.congr rfl rfl) n _).congr rfl rfl

namespace State.Kept
variable {s t : State} {anew : Bool} {i n : Nat} {m : Message} {r : Record}

theorem setPresence (h : s.Kept [] none) (i : Nat) (p : Presence) : (s.setPresence i p).Kept [] none :=
  h.updateRecord fun _ _ => ⟨⟨rfl, rfl, rfl⟩, rfl, rfl, rfl, Iff.rfl⟩

/-- The slot that an ACK matches is a slot of the record. -/
theorem ackedSlot {tag : Nat} (h : s.Kept [] none) (hr : s.record? i = some r)
    (ha : s.ackedSlot r tag = some (n, m)) : s.message? n = some m ∧ m.owner = i := by
  simp only [State.ackedSlot, Option.bind_eq_some_iff] at ha
  obtain ⟨k, hk, x, hx, hax⟩ := ha
  split at hax
  next =>
    cases hax
    obtain ⟨y, hy, ho⟩ := (h.owners.live_iff hr n).mp (List.mem_of_find?_eq_some hk)
    rw [hx] at hy; cases hy
    exact ⟨hx, ho⟩
  next => cases hax

theorem takeAck {l : Link} {tag zone : Nat} (h : s.Kept [] none) (hr : s.record? i = some r) :
    (s.takeAck anew l i r tag zone).Kept [] none := by
  unfold State.takeAck
  split
  next => exact (h.setPresence i (.here zone)).congr (by simp)
  next n m ha =>
    obtain ⟨hm, ho⟩ := h.ackedSlot hr ha
    split
    next =>
      have hk := (h.setPresence i (.here zone)).updateMessage (n := n) (f := fun m => { m with ackPending := true })
        (m := m) (by simpa [State.setPresence] using hm) ⟨rfl, rfl, rfl, rfl⟩ (.inl rfl)
      exact hk.congr (by simp)
    next =>
      split
      next => exact h.congr (State.storePart_wait s anew (by simp))
      next t ht =>
        have hk := ((h.touch ht).setPresence i (.here zone)).settleThenFree (n := n) (m := m) (e := .delivered)
          (anew := anew) (holder := .report l) (by simpa [State.setPresence] using touch_message ht hm)
        rw [ho] at hk
        split
        next u hu => rwa [hu] at hk
        next u hu => rw [hu] at hk; exact State.Kept.congr hk (by simp)

theorem takeRegister {zone : Nat} (h : s.Kept [] none) (hr : s.record? i = some r) :
    (s.takeRegister i r zone).Kept [] none := by
  generalize hu : (s.updateRecord i fun r => { r with presence := .here zone, held := [] }) = u
  have hput : u = s.putRecord i { r with presence := .here zone, held := [] } := by
    rw [← hu, State.updateRecord_eq hr]
  have hrecU : u.record? = Function.update s.record? i (some { r with presence := .here zone, held := [] }) := by
    rw [hput, State.record?_putRecord_fun]
  have hmsgU : u.message? = s.message? := by rw [hput]; rfl
  have hplacesU : Places (placesOf u.message? []) u.dsu.queues.slots (u.dsu.staging.map (·.slot))
      (u.dsu.sending.map (·.slot)) u.aru.timed := by rw [hmsgU, hput]; exact h.places
  obtain ⟨hplaces, hmsg, hstu, hfree, hcount, hlow, hpdu, hrising⟩ :=
    State.releaseSlots hplacesU (h.owners.held_nodup hr) fun n hn => by
      obtain ⟨m, hm, -, hh⟩ := (h.owners.held_iff hr n).mp hn
      exact ⟨m, by rw [hmsgU, hm], hh⟩
  have ht : s.takeRegister i r zone = r.held.foldl State.releaseSlot u := by rw [State.takeRegister, hu]
  rw [ht]
  have hframe : (r.held.foldl State.releaseSlot u).stu.sameFrame s.stu := by
    rw [hstu, hput]; exact State.putRecord_sameFrame s i _
  have hrec : (r.held.foldl State.releaseSlot u).record? =
      Function.update s.record? i (some { r with presence := .here zone, held := [] }) := by
    rw [State.record?_eq (s := u) (by rw [hstu]), hrecU]
  have hmsgS : ∀ k, (r.held.foldl State.releaseSlot u).message? k =
      if k ∈ r.held then (s.message? k).map Message.release else s.message? k := by rw [← hmsgU]; exact hmsg
  have hclosing : (r.held.foldl State.releaseSlot u).closingIndexes = s.closingIndexes :=
    State.closingIndexes_congr (by rw [hpdu, hput]; rfl)
  obtain ⟨hnb, hab⟩ := hframe.bucket
  have hlists : (r.held.foldl State.releaseSlot u).Lists := by
    refine h.lists.congr hframe (by rw [hfree, hput]; rfl) (by rw [hcount, hput]; rfl) (by rw [hlow, hput]; rfl)
      (by rw [hrec]; exact isSome_update hr) fun k => ?_
    rw [hmsgS]; split <;> simp
  obtain ⟨-, -, -, -, hni, hai, -⟩ := hframe
  refine ⟨hrising (hput ▸ h.rising.putRecord i _), hlists, ?_, ?_, hplaces, ?_, ?_⟩
  · rw [hrec, hnb, hni]; exact h.numbers.change hr Iff.rfl rfl
  · rw [hrec, hab, hai]; exact h.addresses.change hr Iff.rfl rfl
  · rw [hrec]; exact h.owners.release (r' := { r with presence := .here zone, held := [] }) hr rfl rfl rfl hmsgS
      fun m => ⟨rfl, rfl, rfl, rfl⟩
  · rw [hrec, hclosing]; exact h.closings.change hr rfl Iff.rfl

theorem takeReport {l : Link} (h : s.Kept [] none) : (s.takeReport anew l).Kept [] none := by
  unfold State.takeReport
  split
  next => exact h
  next =>
    split
    next =>
      split
      next => exact h.congr (by simp)
      next i _ =>
        split
        next => exact h.congr (by simp)
        next r hr =>
          split
          next => exact h.congr (by simp)
          next =>
            split
            next => exact h.takeAck hr
            next => exact State.Kept.congr (h.takeRegister hr) (State.storePart_popReport _ _)
            next => exact State.Kept.congr (h.setPresence i .away) (by simp)
    next => exact h.congr (by simp)

/-! ### Cancelling and flushing -/

/-- The cancellation of a slot by its state; the freeing of its owner may then be due (R44). -/
theorem cancelSlot {loose : Option Nat} (h : s.Kept [] loose) (hm : s.message? n = some m)
    (hl : loose = none ∨ loose = some m.owner) : (s.cancelSlot n m).Kept [] (some m.owner) := by
  have hlook : ∀ {u : State} {x : Message}, u.Kept [] loose → u.message? n = some x → x.owner = m.owner →
      u.Kept [] (some m.owner) := by
    intro u x hu hx ho
    rcases hl with rfl | rfl
    · obtain ⟨r, hr, -⟩ := hu.owner hx
      rw [← ho]; exact hu.look hr (hu.owner_not_due hx hr)
    · exact hu
  unfold State.cancelSlot
  split
  · exact h.settle .cancelled hm (by simp) hl
  · exact hlook (x := { m with cancelPending := true })
      (h.updateMessage (f := fun m => { m with cancelPending := true }) hm ⟨rfl, rfl, rfl, rfl⟩ (.inl rfl))
      (by rw [State.message?_updateMessage_same, hm]; rfl) rfl
  · exact hlook h hm rfl

theorem takeCancel {place : Nat} {reference : BitVec 16} (h : s.Kept [] none) :
    (takeCancel anew place reference s).1.Kept [] none := by
  unfold Machine.takeCancel
  split
  next => exact h
  next =>
    split
    next => exact h
    next n _ =>
      split
      next => exact h
      next m hm =>
        split
        next =>
          split
          next => exact h.congr (State.storePart_wait s anew (by simp))
          next t ht =>
            have hk := ((h.touch ht).cancelSlot (touch_message ht hm) (.inl rfl)).freeOwner (anew := anew)
              (holder := .answer place m.settledReply)
            split
            next u hu => rwa [hu] at hk
            next u hu => rwa [hu] at hk
        next hd =>
          have hk := h.cancelSlot hm (.inl rfl)
          simp only [State.cancelSlot, hd] at hk ⊢
          exact hk.tightenOwner (n := n) (m := { m with cancelPending := true })
            (by rw [State.message?_updateMessage_same, hm]; rfl)
        next => exact h

theorem flushSlot (h : s.Kept [] none) : (s.flushSlot anew n).Kept [] none := by
  unfold State.flushSlot
  split
  next => exact h.congr (by simp)
  next m hm =>
    split
    next => exact h.congr (by simp)
    next =>
      split
      next => exact h.congr (State.storePart_wait s anew (by simp))
      next t ht =>
        have hs := (h.touch ht).settle .flushed (touch_message ht hm) (by simp) (.inl rfl)
        have hk := (hs.congr (State.storePart_countFlushed _)).freeOwner (anew := anew) (holder := .walk)
        split
        next u hu => rwa [hu] at hk
        next u hu => rw [hu] at hk; exact State.Kept.congr hk (by simp)

theorem flushStep (h : s.Kept [] none) : (s.flushStep anew).Kept [] none := by
  unfold State.flushStep
  split
  · split
    · exact h.flushSlot
    · exact h
  · exact h

end State.Kept

/-- What a cancellation leaves of a slot keeps its owner. -/
theorem State.cancelSlot_owner {s : State} {n k : Nat} {m x : Message}
    (hx : (s.cancelSlot n m).message? k = some x) : ∃ y, s.message? k = some y ∧ x.owner = y.owner := by
  unfold State.cancelSlot at hx
  split at hx
  · rw [State.message?_settle_fun] at hx
    exact ⟨x, (update_none_eq_some_iff.mp hx).2, rfl⟩
  · by_cases hk : k = n
    · subst hk
      rw [State.message?_updateMessage_same] at hx
      obtain ⟨y, hy, rfl⟩ := Option.map_eq_some_iff.mp hx
      exact ⟨y, hy, rfl⟩
    · rw [State.message?_updateMessage_other _ _ hk] at hx
      exact ⟨x, hx, rfl⟩
  · exact ⟨x, hx, rfl⟩

/-! ### Acceptance -/

/-- A take leaves the limit of the list. -/
theorem FreeList.take_limit {f g : FreeList} {i : Nat} (h : f.take = some (i, g)) : g.limit = f.limit := by
  unfold FreeList.take at h
  split at h
  · cases h; rfl
  · split at h <;> cases h; rfl

/-- A slot that was FREE and is given out has no place yet. -/
theorem placesOf_update_out {message : Nat → Option Message} {n : Nat} {m : Message} (hn : message n = none) :
    placesOf (Function.update message n (some m)) [n] = placesOf message [] := by
  funext k
  by_cases hk : k = n
  · subst hk; simp [placesOf, hn]
  · simp [placesOf, hk]

/-- While the chosen tag is in use, so is every tag tried on the way to it. -/
theorem chooseTag_mem {used : List Nat} {k t : Nat} (ht : t < 128) (h : chooseTag used k t ∈ used) :
    ∀ j ≤ k, (t + j) % 128 ∈ used := by
  induction k generalizing t with
  | zero => intro j hj; simpa [chooseTag, Nat.le_zero.mp hj, Nat.mod_eq_of_lt ht] using h
  | succ k ih =>
    unfold chooseTag at h
    split at h
    next hmem =>
      intro j hj
      cases j with
      | zero => simpa [Nat.mod_eq_of_lt ht] using hmem
      | succ j =>
        have := ih (Nat.mod_lt _ (by norm_num)) h j (by omega)
        rwa [Nat.mod_add_mod, Nat.add_assoc, Nat.add_comm 1 j] at this
    next hmem => exact absurd h hmem

/-- The tag given to a slot is one that no slot of a live list with room carries (R35). -/
theorem chooseTag_not_mem {used : List Nat} (h : used.length < 17) (t : Nat) : chooseTag used 17 t ∉ used := by
  intro hmem
  unfold chooseTag at hmem
  split at hmem
  next =>
    have hall := chooseTag_mem (Nat.mod_lt _ (by norm_num)) hmem
    have hnd : ((List.range 17).map fun j => ((t + 1) % 128 + j) % 128).Nodup := by
      refine (List.nodup_map_iff_inj_on List.nodup_range).mpr fun a ha b hb hab => ?_
      simp only [List.mem_range] at ha hb
      omega
    have hsub : ∀ x ∈ (List.range 17).map fun j => ((t + 1) % 128 + j) % 128, x ∈ used := by
      intro x hx
      obtain ⟨j, hj, rfl⟩ := List.mem_map.mp hx
      exact hall j (by simp only [List.mem_range] at hj; omega)
    have := (List.subperm_of_subset hnd hsub).length_le
    simp only [List.length_map, List.length_range] at this
    omega
  next hn => exact hn hmem

/-- An acceptance that passes names a record that is ACTIVE and has room for a slot (R91). -/
theorem State.judge_pass {s : State} {sub : Submission} {i c : Nat} (h : s.judge sub = .pass i c) :
    ∃ r, s.record? i = some r ∧ r.state = .active ∧ r.live.length < Config.liveLimit := by
  unfold State.judge at h
  split at h
  next => cases h
  next =>
    split at h
    next => cases h
    next j _ =>
      split at h
      next => cases h
      next r hr =>
        split_ifs at h with h1 h2 h3 h4
        dsimp only at h
        split at h
        next => cases h; exact ⟨r, hr, not_not.mp h1, by omega⟩
        next => cases h

theorem State.lowerFree_lowWater (s : State) :
    s.lowerFree.msu.lowWater = if s.msu.freeCount = Config.lowWater + 1 then true else s.msu.lowWater := by
  unfold State.lowerFree; split <;> simp

theorem State.lowerFree_slots (s : State) : s.lowerFree.msu.slots = s.msu.slots := by
  unfold State.lowerFree; split <;> simp

namespace State.Kept
variable {s t : State} {anew : Bool} {i n c : Nat} {r : Record} {free : FreeList} {src : Source} {p : Priority}
  {body : List Byte}

/-- The slot an acceptance allocates is in no place, and the rest of the invariant holds (R34, R62). -/
theorem allocate (h : s.Kept [] none) (hr : s.record? i = some r) (hactive : r.state = .active)
    (hroom : r.live.length < Config.liveLimit) (hf : s.msu.free.take = some (n, free)) :
    (s.allocate n free i r src p body c).Kept [n] none ∧ (s.allocate n free i r src p body c).message? n =
      some (newMessage i r (chooseTag (s.liveTags r) 17 r.nextTag) src p body c s.pdu.period) := by
  generalize htag : chooseTag (s.liveTags r) 17 r.nextTag = tag
  generalize hnew : newMessage i r tag src p body c s.pdu.period = m
  obtain ⟨hfresh, hcounts⟩ := h.lists.slots.take (v := m) hf
  have hpos := h.lists.slots.count_pos hf
  generalize hu : s.allocate n free i r src p body c = u
  have hsame : u.message? n = some m := by
    rw [← hu, State.message?, State.slot_allocate_same, htag, hnew]
  have hmsg : u.message? = Function.update s.message? n (some m) := by
    funext k
    by_cases hk : k = n
    · subst hk; simp [hsame]
    · simp only [Function.update_of_ne hk, ← hu, State.message?, State.slot_allocate_other hk]
  have hrec : u.record? = Function.update s.record? i (some { r.reserve c with
      live := r.live ++ [n], nextTag := (tag + 1) % 128 }) := by
    funext j
    by_cases hj : j = i
    · subst hj; rw [← hu, State.record?_allocate_same, htag]; simp
    · rw [← hu, State.record?_allocate_other hj, Function.update_of_ne hj]
  have hframe : u.stu.sameFrame s.stu := by
    rw [← hu]; simp [State.allocate, Stu.sameFrame, State.putRecord]
  obtain ⟨hfree, hcount⟩ : u.msu.free = free ∧ u.msu.freeCount = s.msu.freeCount - 1 := by
    rw [← hu]; exact State.allocate_free
  have hlow : u.msu.lowWater = if s.msu.freeCount = Config.lowWater + 1 then true else s.msu.lowWater := by
    rw [← hu]; simp [State.allocate, State.putSlot, State.lowerFree_lowWater]
  have hrising : u.Rising := by
    rw [← hu]
    refine ((State.Rising.congr (t := State.lowerFree { s with msu := { s.msu with free := free } }) h.rising
      (by simp) ?_).putSlot n _).putRecord i _
    rw [State.lowerFree_slots]
  have hclosing : u.closingIndexes = s.closingIndexes := State.closingIndexes_congr (by rw [← hu]; simp)
  have hdsu : u.dsu = s.dsu ∧ u.aru = s.aru := by rw [← hu]; simp
  obtain ⟨hnb, hab⟩ := hframe.bucket
  obtain ⟨hstate, hcap, hrf, hrc, hni, hai, -⟩ := hframe
  have hnotDue : ∀ x : Record, x.state = .active → ¬ x.Due := fun x hx hd => by rw [hd.1] at hx; cases hx
  have hm : m.owner = i ∧ m.tag = tag ∧ m.charge = c ∧ m.isHeld = false ∧ m.place = .queued := by
    rw [← hnew]; exact ⟨rfl, rfl, rfl, rfl, rfl⟩
  obtain ⟨hmo, hmt, hmc, hmh, -⟩ := hm
  refine ⟨⟨hrising, ⟨?_, ?_, ?_, ?_⟩, ?_, ?_, ?_, ?_, ?_⟩, hsame⟩
  · rw [hrf, hrc, hrec]; exact h.lists.records.congr (isSome_update hr)
  · rw [hfree, hcount, hmsg]; exact hcounts
  · rw [hstate, hrf, hcap, hfree, hcount, hlow]
    intro hready
    obtain ⟨h1, h2, h3⟩ := h.lists.ready hready
    refine ⟨h1, by rw [← h2]; exact FreeList.take_limit hf, ?_⟩
    rw [h3]
    split
    next h65 => rw [h65]; rfl
    next h65 => rw [decide_eq_decide]; omega
  · rw [hstate]; intro hn; have := h.lists.empty hn i; simp [hr] at this
  · rw [hrec, hnb, hni]; exact h.numbers.change hr Iff.rfl rfl
  · rw [hrec, hab, hai]; exact h.addresses.change hr Iff.rfl rfl
  · rw [hmsg, placesOf_update_out hfresh, hdsu.1, hdsu.2]; exact h.places
  · rw [hrec, hmsg]
    refine h.owners.allocate hfresh hr hmo hmh (fun k x hk hx => ?_) rfl rfl (by rw [hmc]; rfl)
    rw [hmt, ← htag]
    refine fun e => chooseTag_not_mem (used := s.liveTags r) (Nat.lt_of_le_of_lt (List.length_filterMap_le _ _)
      (Nat.lt_succ_of_lt hroom)) r.nextTag ?_
    rw [← e]
    exact List.mem_filterMap.mpr ⟨k, (h.owners.live_iff hr k).mpr ⟨x, hk, hx⟩, by simp [hk]⟩
  · rw [hrec, hclosing]
    exact h.closings.change hr rfl (iff_of_false (hnotDue _ hactive) (hnotDue _ hactive))

theorem accept {w : Waiter} {sub : Submission} (h : s.Kept [] none) (hw : ∀ i holder, w ≠ .closing i holder) :
    (s.accept anew w src sub).1.Kept [] none := by
  rcases s.accept_cases anew w src sub with ⟨why, figures, -, ha⟩ | ⟨i, c, -, -, ha⟩ |
    ⟨i, c, t, r, n, free, hj, ht, hr, hf, ha⟩ | ⟨i, c, t, -, ht, -, ha⟩ <;> rw [ha]
  · exact h
  · exact h.congr (State.storePart_wait s anew hw)
  · obtain ⟨r₀, hr₀, hactive, hroom⟩ := State.judge_pass hj
    obtain ⟨hstate, -, -, -, -, -, -, -, -, -, hlive, -⟩ := State.touch_fields ht hr₀ hr
    obtain ⟨hk, hm⟩ := (h.touch ht).allocate (src := src) (p := sub.priority) (body := sub.body) (c := c) hr
      (hstate.trans hactive) (by rw [hlive]; exact hroom) hf
    simp only [State.placeAccepted]
    split
    · rw [← hk.takeOut_queued (m := newMessage i r _ src sub.priority sub.body c t.pdu.period) rfl] at hk
      exact hk.parkHeld hm rfl rfl
    · exact hk.enqueue hm rfl (by simp) _
  · exact h.touch ht

end State.Kept

end Sys2Proof.Machine
end


section
namespace Sys2Proof.Machine
open Sys2Proof

/-! ### The indexes under a move -/

/-- A listed record takes another key and moves to the head of that key's chain; with an equal key it stays. -/
theorem Indexed.move {record : Nat → Option Record} {listed : Record → Prop} {key : Record → Nat} {bucket : Nat → Nat}
    {chain : Nat → List Nat} {i : Nat} {r r' : Record} (h : Indexed record listed key bucket chain)
    (hr : record i = some r) (hl : listed r) (hl' : listed r')
    (hk : key r ≠ key r' → ∀ j x, record j = some x → listed x → key x ≠ key r') :
    Indexed (Function.update record i (some r')) listed key bucket
      (if key r = key r' then chain
      else
        let out := Function.update chain (bucket (key r)) ((chain (bucket (key r))).erase i)
        Function.update out (bucket (key r')) (i :: out (bucket (key r')))) := by
  split
  next he => exact h.change hr (iff_of_true hl' hl) he.symm
  next he =>
    have hin := (h.remove hr hl).insert (r := r') (Function.update_self i none record) hl' fun j x hx hlx =>
      hk he j x (update_none_eq_some_iff.mp hx).2 hlx
    rwa [Function.update_idem] at hin

section
variable {s t : State} {i n : Nat} {r : Record}

theorem State.chainAt_moveNumber (s : State) (i old new : Nat) :
    chainAt (s.moveNumber i old new).stu.numberIndex =
      if old = new then chainAt s.stu.numberIndex
      else
        let out := Function.update (chainAt s.stu.numberIndex) (s.stu.numberBucket old)
          ((chainAt s.stu.numberIndex (s.stu.numberBucket old)).erase i)
        Function.update out (s.stu.numberBucket new) (i :: out (s.stu.numberBucket new)) := by
  unfold State.moveNumber
  split
  · rfl
  · simp only [State.linkNumber, chainAt_putChain_fun, State.unlinkNumber]; rfl

theorem State.chainAt_moveAddress (s : State) (i old new : Nat) :
    chainAt (s.moveAddress i old new).stu.addressIndex =
      if old = new then chainAt s.stu.addressIndex
      else
        let out := Function.update (chainAt s.stu.addressIndex) (s.stu.addressBucket old)
          ((chainAt s.stu.addressIndex (s.stu.addressBucket old)).erase i)
        Function.update out (s.stu.addressBucket new) (i :: out (s.stu.addressBucket new)) := by
  unfold State.moveAddress
  split
  · rfl
  · simp only [State.linkAddress, chainAt_putChain_fun, State.unlinkAddress]; rfl

theorem State.moveNumber_rising (h : s.stu.numberIndex.rising = true) (i old new : Nat) :
    (s.moveNumber i old new).stu.numberIndex.rising = true := by
  unfold State.moveNumber
  split
  · exact h
  · simp only [State.linkNumber, State.unlinkNumber]
    exact putChain_rising (putChain_rising h)

theorem State.moveAddress_rising (h : s.stu.addressIndex.rising = true) (i old new : Nat) :
    (s.moveAddress i old new).stu.addressIndex.rising = true := by
  unfold State.moveAddress
  split
  · exact h
  · simp only [State.linkAddress, State.unlinkAddress]
    exact putChain_rising (putChain_rising h)

/-- An ALTER writes the records and the two indexes, and nothing else of the table. -/
theorem State.alterRecord_stu (s : State) (i : Nat) (r : Record) (a : AlterArgs) : (s.alterRecord i r a).stu =
    { s.stu with
      records := s.stu.records.put i (r.alter a)
      numberIndex := (s.moveNumber i r.number (r.alter a).number).stu.numberIndex
      addressIndex := (s.moveAddress i r.address (r.alter a).address).stu.addressIndex } := by
  simp only [State.alterRecord, State.putRecord, State.moveNumber, State.moveAddress]
  split <;> split <;> rfl

/-- The two lookups see a table through its records, the index and the buckets. -/
theorem State.Kept.findNumber_iff {out : List Nat} {loose : Option Nat} (h : s.Kept out loose) :
    s.findNumber n = some i ↔ ∃ r, s.record? i = some r ∧ r.state ≠ .retiring ∧ r.number = n := h.numbers.find_iff

theorem State.Kept.findNumber_none_iff {out : List Nat} {loose : Option Nat} (h : s.Kept out loose) :
    s.findNumber n = none ↔ ∀ i r, s.record? i = some r → r.state ≠ .retiring → r.number ≠ n := h.numbers.find_none_iff

theorem State.Kept.findAddress_none_iff {out : List Nat} {loose : Option Nat} (h : s.Kept out loose) :
    s.findAddress n = none ↔ ∀ i r, s.record? i = some r → r.address ≠ n := by
  simp only [State.findAddress, h.addresses.find_none_iff, true_implies]

end

/-! ### ADD and ALTER -/

/-- The altered record, field by field (R16, R72 to R74). -/
theorem Record.alter_eq (r : Record) (a : AlterArgs) : r.alter a = { r with
    number := a.newNumber.elim r.number (·.toNat)
    address := a.newAddress.elim r.address (·.toNat)
    cls := (a.newClass.bind classOf).getD r.cls
    kind := (a.newKind.bind kindOf).getD r.kind
    presence := if (a.newKind.bind kindOf).getD r.kind = r.kind then r.presence else .unknown
    zones := a.newZones.getD r.zones
    plan := (a.newPlan.bind fun p => planOf p.1 p.2.toNat).getD
      (a.newCeiling.elim r.plan fun c => r.plan.withCeiling c.toNat)
    allowance := a.newAllowance.elim r.allowance fun v => max v.toNat r.used } := by
  unfold Record.alter
  extract_lets r1 r2 r3 r4 r5 r6 r7
  have h1 : r1 = { r with number := a.newNumber.elim r.number (·.toNat) } := by
    simp only [r1]; cases a.newNumber <;> rfl
  have h2 : r2 = { r1 with address := a.newAddress.elim r1.address (·.toNat) } := by
    simp only [r2]; cases a.newAddress <;> rfl
  have h3 : r3 = { r2 with cls := (a.newClass.bind classOf).getD r2.cls } := by
    simp only [r3]; cases a.newClass.bind classOf <;> rfl
  have h4 : r4 = { r3 with
      kind := (a.newKind.bind kindOf).getD r3.kind
      presence := if (a.newKind.bind kindOf).getD r3.kind = r3.kind then r3.presence else .unknown } := by
    simp only [r4]
    cases a.newKind.bind kindOf with
    | none => simp
    | some k => by_cases hk : k = r3.kind <;> simp [Record.withKind, hk]
  have h5 : r5 = { r4 with zones := a.newZones.getD r4.zones } := by
    simp only [r5]; cases a.newZones <;> rfl
  have h6 : r6 = { r5 with plan := a.newCeiling.elim r5.plan fun c => r5.plan.withCeiling c.toNat } := by
    simp only [r6]; cases a.newCeiling <;> rfl
  have h7 : r7 = { r6 with allowance := a.newAllowance.elim r6.allowance fun v => max v.toNat r6.used } := by
    simp only [r7]; cases a.newAllowance <;> rfl
  clear_value r1 r2 r3 r4 r5 r6 r7
  cases a.newPlan.bind fun p => planOf p.1 p.2.toNat <;> simp only [h7, h6, h5, h4, h3, h2, h1] <;> rfl

/-- An ADD keeps the invariant: the new record is found by its number and its address alone (R14). -/
theorem State.Kept.addRecord {s : State} {i : Nat} {free : FreeList} {r : Record} (h : s.Kept [] none)
    (hready : s.stu.state = .ready) (hf : s.stu.free.take = some (i, free)) (hn : s.findNumber r.number = none)
    (ha : s.findAddress r.address = none) (hstate : r.state = .active) (hl : r.live = []) (hh : r.held = [])
    (hp : r.pending = 0) (hc : r.closing = false) : (s.addRecord i free r).Kept [] none := by
  obtain ⟨hfresh, hcounts⟩ := h.lists.records.take (v := r) hf
  have hrec : (s.addRecord i free r).record? = Function.update s.record? i (some r) :=
    State.record?_putRecord_fun _ i r
  have hstu : (s.addRecord i free r).stu = { s.stu with
      free := free, freeCount := s.stu.freeCount - 1, records := s.stu.records.put i r
      numberIndex := putChain s.stu.numberIndex (s.stu.numberBucket r.number)
        (i :: chainAt s.stu.numberIndex (s.stu.numberBucket r.number))
      addressIndex := putChain s.stu.addressIndex (s.stu.addressBucket r.address)
        (i :: chainAt s.stu.addressIndex (s.stu.addressBucket r.address)) } := rfl
  have hnd : ¬ r.Due := fun hd => by rw [hd.1] at hstate; cases hstate
  have hlisted : r.state ≠ .retiring := by rw [hstate]; simp
  refine ⟨⟨?_, h.rising.slots, ?_, ?_⟩, ⟨?_, h.lists.slots, ?_, ?_⟩, ?_, ?_, h.places, ?_, ?_⟩
  · rw [hstu]; exact Sparse.rising_put h.rising.records
  · rw [hstu]; dsimp only; exact putChain_rising h.rising.numbers
  · rw [hstu]; dsimp only; exact putChain_rising h.rising.addresses
  · rw [hstu, hrec]; exact hcounts
  · intro _
    obtain ⟨h1, h2⟩ := h.lists.ready hready
    exact ⟨(FreeList.take_limit hf).trans h1, h2⟩
  · rw [hstu]; intro hnr; exact absurd hready hnr
  · rw [hrec, hstu]
    simp only [chainAt_putChain_fun]
    exact h.numbers.insert hfresh hlisted (h.findNumber_none_iff.mp hn)
  · rw [hrec, hstu]
    simp only [chainAt_putChain_fun]
    exact h.addresses.insert hfresh trivial fun j x hx _ => h.findAddress_none_iff.mp ha j x hx
  · rw [hrec]; exact h.owners.addRecord hfresh hl hh hp
  · rw [hrec]; exact h.closings.addRecord hfresh hc hnd

theorem State.Kept.takeAdd {s : State} {a : AddArgs} (h : s.Kept [] none) : (Machine.takeAdd a s).1.Kept [] none := by
  unfold Machine.takeAdd
  split
  next => exact h
  next hready =>
    split
    next =>
      split_ifs with h1 h2 h3 h4
      · exact h
      · exact h
      · exact h
      · exact h
      · split
        next => exact h
        next i free hf =>
          exact h.addRecord (by simpa [State.ready] using hready) hf (Option.not_isSome_iff_eq_none.mp h2)
            (Option.not_isSome_iff_eq_none.mp h3) rfl rfl rfl rfl rfl
    next => exact h

/-- An ALTER keeps the invariant: a new number and a new address that no other record has (R15, R16). -/
theorem State.Kept.alterRecord {s : State} {i : Nat} {r : Record} {a : AlterArgs} (h : s.Kept [] none)
    (hr : s.record? i = some r) (hlisted : r.state ≠ .retiring)
    (hn : r.number ≠ (r.alter a).number → s.findNumber (r.alter a).number = none)
    (ha : r.address ≠ (r.alter a).address → s.findAddress (r.alter a).address = none) :
    (s.alterRecord i r a).Kept [] none := by
  have hsame : (r.alter a).SameSlots r ∧ (r.alter a).state = r.state ∧ (r.alter a).closing = r.closing := by
    rw [Record.alter_eq]; exact ⟨⟨rfl, rfl, rfl⟩, rfl, rfl⟩
  obtain ⟨hslots, hstate, hclosing⟩ := hsame
  have hstu := s.alterRecord_stu i r a
  have hrec : (s.alterRecord i r a).record? = Function.update s.record? i (some (r.alter a)) := by
    rw [← State.record?_putRecord_fun]; exact State.record?_eq (by rw [hstu]; rfl)
  have hmsg : (s.alterRecord i r a).message? = s.message? := State.message?_eq (by simp [State.alterRecord])
  have hw : (s.alterRecord i r a).closingIndexes = s.closingIndexes :=
    State.closingIndexes_congr (by simp [State.alterRecord])
  have hmsu : (s.alterRecord i r a).msu = s.msu := by simp [State.alterRecord]
  refine ⟨⟨?_, ?_, ?_, ?_⟩, ⟨?_, ?_, ?_, ?_⟩, ?_, ?_, ?_, ?_, ?_⟩
  · rw [hstu]; exact Sparse.rising_put h.rising.records
  · rw [hmsu]; exact h.rising.slots
  · rw [hstu]; exact State.moveNumber_rising h.rising.numbers _ _ _
  · rw [hstu]; exact State.moveAddress_rising h.rising.addresses _ _ _
  · rw [hstu, hrec]; exact h.lists.records.congr (isSome_update hr)
  · rw [hmsu, hmsg]; exact h.lists.slots
  · rw [hstu, hmsu]; exact h.lists.ready
  · rw [hstu]; intro hnr; have := h.lists.empty hnr i; simp [hr] at this
  · rw [hrec, hstu]
    simp only [State.chainAt_moveNumber]
    exact h.numbers.move hr hlisted (by rw [hstate]; exact hlisted) fun hne j x =>
      h.findNumber_none_iff.mp (hn hne) j x
  · rw [hrec, hstu]
    simp only [State.chainAt_moveAddress]
    exact h.addresses.move hr trivial trivial fun hne j x hx _ => h.findAddress_none_iff.mp (ha hne) j x hx
  · rw [hmsg]; simpa [State.alterRecord] using h.places
  · rw [hrec, hmsg]; exact h.owners.changeRecord hr hslots
  · rw [hrec, hw]
    exact h.closings.change hr hclosing (by simp only [Record.Due, hstate, hslots.live])

end Sys2Proof.Machine
end


section
namespace Sys2Proof.Machine
open Sys2Proof

section
variable {s t : State} {anew : Bool} {i n place : Nat} {r : Record}

/-- A touch-sweep of a FREE record does nothing (R162). -/
theorem State.touch_none (hr : s.record? i = none) (h : s.touch anew i = some t) : t = s := by
  simpa [State.touch, hr, eq_comm] using h

/-- A touch-sweep leaves both lookups as they are. -/
theorem State.touch_find (h : s.touch anew i = some t) (n : Nat) :
    t.findNumber n = s.findNumber n ∧ t.findAddress n = s.findAddress n := by
  obtain ⟨-, -, -, -, -, -, -, -, -, -, hother, hstu, -⟩ := State.touch_frame h
  have hfields : ∀ {β : Type} (key : Record → β), (∀ r r', s.record? i = some r → t.record? i = some r' →
      key r' = key r) → ∀ j, (t.record? j).map key = (s.record? j).map key := by
    intro β key hkey j
    by_cases hj : j = i
    · subst hj
      cases hr : s.record? j with
      | none => rw [State.touch_none hr h, hr]
      | some r =>
        have hr' := State.touch_record hr h
        rw [hr', Option.map_some, Option.map_some, hkey r _ hr hr']
    · rw [hother j hj]
  have hnum := hfields (·.number) fun r r' hr hr' => (State.touch_fields h hr hr').2.1
  have hadr := hfields (·.address) fun r r' hr hr' => by
    obtain ⟨-, -, haddress, -⟩ := State.touch_fields h hr hr'
    exact haddress
  have hany : ∀ {key : Record → Nat}, (∀ j, (t.record? j).map key = (s.record? j).map key) →
      (fun j => (t.record? j).any fun r => key r == n) = fun j => (s.record? j).any fun r => key r == n := by
    intro key hkey
    funext j
    have := congrArg (Option.any (· == n)) (hkey j)
    simpa [Option.any_map, Function.comp_def] using this
  constructor
  · unfold State.findNumber; rw [hany hnum, hstu]; rfl
  · unfold State.findAddress; rw [hany hadr, hstu]; rfl

namespace State.Kept

theorem takeAlter {a : AlterArgs} (h : s.Kept [] none) : (takeAlter anew place a s).1.Kept [] none := by
  unfold Machine.takeAlter
  split
  next => exact h
  next =>
    split
    next => exact h
    next =>
      split
      next => exact h
      next i hi =>
        split
        next => exact h
        next r hr =>
          split
          next => exact h
          next =>
            split
            next => exact h
            next hchecks =>
              split
              next => exact h.congr (State.storePart_wait s anew (by simp))
              next t ht =>
                have htouched : t.Kept [] none ∧ (∀ n, t.findNumber n = s.findNumber n ∧
                    t.findAddress n = s.findAddress n) ∧
                    ∀ r', t.record? i = some r' → r'.state = r.state ∧ r'.number = r.number ∧
                      r'.address = r.address := by
                  split at ht
                  · refine ⟨h.touch ht, State.touch_find ht, fun r' hr' => ?_⟩
                    obtain ⟨h1, h2, h3, -⟩ := State.touch_fields ht hr hr'
                    exact ⟨h1, h2, h3⟩
                  · cases ht
                    exact ⟨h, fun _ => ⟨rfl, rfl⟩, fun r' hr' => by rw [hr] at hr'; cases hr'; exact ⟨rfl, rfl, rfl⟩⟩
                obtain ⟨hk, hfind, hsame⟩ := htouched
                split
                next => exact hk
                next r' hr' =>
                  obtain ⟨hstate, hnumber, haddress⟩ := hsame r' hr'
                  obtain ⟨r₀, hr₀, hlisted, -⟩ := h.findNumber_iff.mp hi
                  rw [hr] at hr₀; cases hr₀
                  simp only [State.alterRefusal] at hchecks
                  split_ifs at hchecks with h1 h2 h3 h4 h5 h6
                  simp only [Bool.not_eq_true, Bool.not_eq_false'] at h4 h5
                  refine hk.alterRecord hr' (by rw [hstate]; exact hlisted) (fun hne => ?_) fun hne => ?_
                  · rw [Record.alter_eq] at hne ⊢
                    cases hv : a.newNumber with
                    | none => simp [hv] at hne
                    | some v =>
                      simp only [hv, Option.elim_some, carried, Option.all_some, Bool.or_eq_true, decide_eq_true_eq,
                        hnumber] at hne h4 ⊢
                      rw [(hfind _).1]
                      simpa using h4.resolve_left (Ne.symm hne)
                  · rw [Record.alter_eq] at hne ⊢
                    cases hv : a.newAddress with
                    | none => simp [hv] at hne
                    | some v =>
                      simp only [hv, Option.elim_some, carried, Option.all_some, Bool.or_eq_true, decide_eq_true_eq,
                        haddress] at hne h5 ⊢
                      rw [(hfind _).2]
                      simpa using h5.resolve_left (Ne.symm hne)

theorem takeSetState {st : RecordState} {number : BitVec 24} (h : s.Kept [] none) (hst : st ≠ .retiring) :
    (takeSetState st number s).1.Kept [] none := by
  unfold Machine.takeSetState
  split
  next => exact h
  next =>
    split
    next => exact h
    next i hi =>
      obtain ⟨r, hr, hlisted, -⟩ := h.findNumber_iff.mp hi
      refine h.updateRecord fun x hx => ?_
      rw [hr] at hx; cases hx
      exact ⟨⟨rfl, rfl, rfl⟩, rfl, rfl, rfl, iff_of_false hst hlisted⟩

theorem takeAdjustBalance {number : BitVec 24} {amount : BitVec 32} (h : s.Kept [] none) :
    (takeAdjustBalance anew place number amount s).1.Kept [] none := by
  unfold Machine.takeAdjustBalance
  split
  next => exact h
  next =>
    split
    next => exact h
    next =>
      split
      next => exact h
      next =>
        split
        next => exact h
        next =>
          split
          next => exact h
          next =>
            split
            next => exact h.congr (State.storePart_wait s anew (by simp))
            next t ht => exact (h.touch ht).updateRecord fun _ _ => ⟨⟨rfl, rfl, rfl⟩, rfl, rfl, rfl, Iff.rfl⟩

/-! ### RETIRE -/

/-- The record leaves the number index; the freeing of it may be due (R20). -/
theorem retireRecord (h : s.Kept [] none) (hr : s.record? i = some r) (hlisted : r.state ≠ .retiring) {r₀ : Record}
    (hn : r₀.number = r.number) : (s.retireRecord i r₀).Kept [] (some i) := by
  have hr' : (s.unlinkNumber r₀.number i).record? i = some r := hr
  have hput : s.retireRecord i r₀ = (s.unlinkNumber r₀.number i).putRecord i { r with state := .retiring } := by
    simp only [State.retireRecord, State.updateRecord_eq hr']
  have hrec : (s.retireRecord i r₀).record? = Function.update s.record? i (some { r with state := .retiring }) := by
    rw [hput, State.record?_putRecord_fun]; rfl
  have hchain : chainAt (s.retireRecord i r₀).stu.numberIndex = Function.update (chainAt s.stu.numberIndex)
      (s.stu.numberBucket r.number) ((chainAt s.stu.numberIndex (s.stu.numberBucket r.number)).erase i) := by
    rw [hput, ← hn]; exact chainAt_putChain_fun _ _ _
  have hnd : ¬ r.Due := fun hd => hlisted hd.1
  rw [hput] at hrec hchain ⊢
  refine ⟨⟨Sparse.rising_put h.rising.records, h.rising.slots, putChain_rising h.rising.numbers, h.rising.addresses⟩,
    ?_, ?_, ?_, h.places, ?_, ?_⟩
  · refine ⟨?_, h.lists.slots, h.lists.ready, fun hn' => ?_⟩
    · rw [hrec]; exact h.lists.records.congr (isSome_update hr)
    · have := h.lists.empty hn' i; simp [hr] at this
  · rw [hrec, hchain]
    have := (h.numbers.remove hr hlisted).insertUnlisted (r := { r with state := .retiring })
      (Function.update_self i none s.record?) (by simp)
    rwa [Function.update_idem] at this
  · rw [hrec]; exact h.addresses.change hr Iff.rfl rfl
  · rw [hrec]; exact h.owners.changeRecord hr ⟨rfl, rfl, rfl⟩
  · rw [hrec]; exact h.closings.loosen hr hnd rfl

/-- A PURGE cancels slots of the one record looked at (R22). -/
theorem purge {l : List Nat} (h : s.Kept [] (some i)) (hl : ∀ n ∈ l, ∀ m, s.message? n = some m → m.owner = i) :
    (s.purge l).Kept [] (some i) := by
  unfold State.purge
  induction l generalizing s with
  | nil => exact h
  | cons n l ih =>
    rw [List.foldl_cons]
    cases hm : s.message? n with
    | none => exact ih h fun k hk => hl k (by simp [hk])
    | some m =>
      have ho := hl n (by simp) m hm
      refine ih (ho ▸ h.cancelSlot hm (.inr (by rw [ho]))) fun k hk x hx => ?_
      obtain ⟨y, hy, hxy⟩ := State.cancelSlot_owner hx
      rw [hxy]; exact hl k (by simp [hk]) y hy

theorem takeRetire {number : BitVec 24} {mode : Byte} (h : s.Kept [] none) :
    (takeRetire anew place number mode s).1.Kept [] none := by
  unfold Machine.takeRetire
  split
  next => exact h
  next =>
    split
    next => exact h
    next p _ =>
      split
      next => exact h
      next i hi =>
        split
        next => exact h
        next r hr =>
          dsimp only
          split
          next => exact h.congr (State.storePart_wait s anew (by simp))
          next t ht =>
            have htouched : t.Kept [] none ∧ ∃ r', t.record? i = some r' ∧ r'.state = r.state ∧ r'.number = r.number ∧
                r'.live = r.live := by
              split at ht
              · have hr' := State.touch_record hr ht
                obtain ⟨h1, h2, -, -, -, -, -, -, -, -, h3, -⟩ := State.touch_fields ht hr hr'
                exact ⟨h.touch ht, _, hr', h1, h2, h3⟩
              · cases ht; exact ⟨h, r, hr, rfl, rfl, rfl⟩
            obtain ⟨hk, r', hr', hstate, hnumber, hlive⟩ := htouched
            obtain ⟨r₀, hr₀, hlisted, -⟩ := h.findNumber_iff.mp hi
            rw [hr] at hr₀; cases hr₀
            have hretired := hk.retireRecord hr' (by rw [hstate]; exact hlisted) hnumber.symm
            have hmsg : (t.retireRecord i r).message? = t.message? := by
              have : (t.unlinkNumber r.number i).record? i = some r' := hr'
              simp only [State.retireRecord, State.updateRecord_eq this]; rfl
            generalize hu : (if p = true then (t.retireRecord i r).purge r.live else t.retireRecord i r) = u
            have hpurged : u.Kept [] (some i) := by
              rw [← hu]
              split
              · refine hretired.purge fun n hn m hm => ?_
                rw [hmsg] at hm
                rw [← hlive] at hn
                obtain ⟨x, hx, ho⟩ := (hk.owners.live_iff hr' n).mp hn
                rw [hm] at hx; cases hx; exact ho
              · exact hretired
            split
            next hd =>
              have hfreed := hpurged.beginFreeing (anew := anew) hd (holder := .answer place
                (retireReply i (if p = true then (s.purgeable r).length else 0) true))
              split
              next v hv => rwa [hv] at hfreed
              next v hv => rwa [hv] at hfreed
            next hd => exact hpurged.tighten (by simpa using hd)

end State.Kept

/-! ### FORMAT and reset -/

/-- A state with no record, no slot in use and no waiter keeps the invariant. -/
theorem State.Kept.of_empty (hrising : s.Rising) (hlists : s.Lists) (hr : ∀ i, s.record? i = none)
    (hm : ∀ n, s.message? n = none) (hn : ∀ b, chainAt s.stu.numberIndex b = [])
    (ha : ∀ b, chainAt s.stu.addressIndex b = []) (hw : s.closingIndexes = [])
    (hp : Places (placesOf s.message? []) s.dsu.queues.slots (s.dsu.staging.map (·.slot)) (s.dsu.sending.map (·.slot))
      s.aru.timed) : s.Kept [] none := by
  have hr : s.record? = fun _ => none := funext hr
  have hm : s.message? = fun _ => none := funext hm
  refine ⟨hrising, hlists, ?_, ?_, hp, ?_, ?_⟩
  · rw [hr, funext hn]; exact Indexed.empty
  · rw [hr, funext ha]; exact Indexed.empty
  · rw [hr, hm]; exact Owners.empty
  · rw [hr, hw]; exact ⟨List.nodup_nil, by simp, by simp, by simp, by simp⟩

theorem State.Kept.takeFormat {code : Byte} (h : s.Kept [] none) : (takeFormat code place s).1.Kept [] none := by
  unfold Machine.takeFormat
  split
  next => exact h
  next =>
    split_ifs with h1 h2
    · exact h
    · exact h
    · simp only [State.trafficPresent, Bool.or_eq_true, not_or, Bool.not_eq_true, List.any_eq_false,
        Bool.not_eq_false', List.isEmpty_iff] at h1
      obtain ⟨⟨⟨hslots, -⟩, -⟩, hwaiters⟩ := h1
      have hm : ∀ n, s.message? n = none := fun n => by
        cases hm : s.message? n with
        | none => rfl
        | some m =>
          cases hl : s.msu.slots.look n with
          | none => simp [State.message?, State.slot, hl] at hm
          | some v =>
            simp only [State.message?, State.slot, hl, Option.getD_some] at hm
            simpa [hm] using hslots _ (Sparse.mem_of_look hl)
      refine State.Kept.of_empty ⟨rfl, h.rising.slots, rfl, rfl⟩ ⟨FreeList.counts_empty, h.lists.slots, by simp, ?_⟩
        (fun _ => rfl) hm (fun _ => rfl) (fun _ => rfl) (by simp [State.closingIndexes, hwaiters]) h.places
      exact fun _ _ => rfl

theorem State.Kept.completeFormat (h : s.Kept [] none) (hf : s.stu.state = .formatting) :
    s.completeFormat.Kept [] none := by
  have hr := h.lists.empty (by rw [hf]; simp)
  have hm : s.message? = fun _ => none := by
    funext n
    cases hm : s.message? n with
    | none => rfl
    | some m => have := h.owners.owned hm; simp [hr] at this
  have hw : s.closingIndexes = [] := by
    rw [List.eq_nil_iff_forall_not_mem]
    intro i hi
    obtain ⟨r, hri, -⟩ := h.closings.marked hi
    simp [hr] at hri
  have hplaces := h.places
  rw [hm] at hplaces
  have hk : ({ s with
      stu :=
        { state := .ready, capacity := s.stu.capacity, free := .full s.stu.capacity, freeCount := s.stu.capacity,
          records := [], numberIndex := [], addressIndex := [], formatPlace := none }
      msu := { s.msu with slots := [], free := .full Config.slotCount, freeCount := Config.slotCount,
                          lowWater := false } } : State).Kept [] none :=
    State.Kept.of_empty ⟨rfl, rfl, rfl, rfl⟩
      ⟨FreeList.counts_full _, FreeList.counts_full _, fun _ => ⟨rfl, rfl, rfl⟩, fun hn => absurd rfl hn⟩
      (fun _ => rfl) (fun _ => rfl) (fun _ => rfl) (fun _ => rfl) hw hplaces
  unfold State.completeFormat
  split
  · exact State.Kept.congr hk (State.storePart_complete _ _ _ _)
  · exact hk

/-- No slot has a place. -/
theorem Places.empty : Places (fun _ => none) [] none none [] :=
  ⟨List.nodup_nil, List.nodup_nil, by simp, by simp, by simp, by simp⟩

theorem State.Kept.afterReset (pins : Pins) (pending : List Instr) : (State.afterReset pins pending).Kept [] none := by
  have hplace : placesOf (State.afterReset pins pending).message? [] = fun _ => none := by
    funext n
    have hm : (State.afterReset pins pending).message? n = none := rfl
    simp [placesOf, hm]
  refine State.Kept.of_empty ⟨rfl, rfl, rfl, rfl⟩ ⟨FreeList.counts_empty, FreeList.counts_empty, fun hn => ?_,
    fun _ _ => rfl⟩ (fun _ => rfl) (fun _ => rfl) (fun _ => rfl) (fun _ => rfl) rfl ?_
  · cases hn
  · rw [hplace]; exact Places.empty

end

end Sys2Proof.Machine
end


section
namespace Sys2Proof.Machine
open Sys2Proof

/-! ### Commands that leave all that the store reads -/

section
variable (s : State) {place : Nat}

@[simp] theorem State.storePart_startClose (c : Cause) : (s.startClose c).storePart = s.storePart := by
  apply State.storePart_congr <;> simp [State.startClose]

theorem storePart_takeSetTariff (a : TariffArgs) : (takeSetTariff a s).1.storePart = s.storePart := by
  cases a <;> rfl

theorem storePart_takeSetOverride (zones : ZoneSet) (v : Byte) :
    (takeSetOverride zones v s).1.storePart = s.storePart := by
  unfold takeSetOverride; split <;> rfl

theorem storePart_takeHoldDispatch (v : Byte) : (takeHoldDispatch v s).1.storePart = s.storePart := by
  unfold takeHoldDispatch; split <;> rfl

theorem storePart_takeSetArbiter (v : Byte) : (takeSetArbiter v s).1.storePart = s.storePart := by
  unfold takeSetArbiter; split <;> rfl

theorem storePart_takeSetReturnLink (a : LinkArgs) : (takeSetReturnLink a s).1.storePart = s.storePart := by
  unfold takeSetReturnLink
  split
  · split_ifs <;> simp
  · rfl

theorem storePart_takeEnableReturnLink (l : Byte) : (takeEnableReturnLink l s).1.storePart = s.storePart := by
  unfold takeEnableReturnLink
  split
  · rfl
  · dsimp only; split_ifs <;> simp

theorem storePart_takeDisableReturnLink (l : Byte) : (takeDisableReturnLink l s).1.storePart = s.storePart := by
  unfold takeDisableReturnLink
  split
  · rfl
  · dsimp only; split_ifs <;> simp

theorem storePart_takeSetLine (a : LineArgs) : (takeSetLine a s).1.storePart = s.storePart := by
  unfold takeSetLine
  split
  · rfl
  · split
    · rfl
    · split_ifs <;> rfl

theorem storePart_takeEnableLine (l : Byte) : (takeEnableLine l s).1.storePart = s.storePart := by
  unfold takeEnableLine
  split
  · rfl
  · split_ifs <;> rfl

theorem storePart_takeDisableLine (l : Byte) : (takeDisableLine l s).1.storePart = s.storePart := by
  unfold takeDisableLine
  split
  · rfl
  · dsimp only; split <;> rfl

theorem storePart_takeLineStatus (l : Byte) : (takeLineStatus l s).1.storePart = s.storePart := by
  unfold takeLineStatus; split <;> rfl

theorem storePart_takeReadMessage (ref : BitVec 16) : (takeReadMessage ref s).1.storePart = s.storePart := by
  unfold takeReadMessage
  split
  · rfl
  · split <;> rfl

theorem storePart_takeTrafficReset : (takeTrafficReset place s).1.storePart = s.storePart := by
  unfold takeTrafficReset; split_ifs <;> rfl

theorem storePart_takeFindNumber (n : BitVec 24) : (takeFindNumber n s).1.storePart = s.storePart := by
  unfold takeFindNumber; split_ifs <;> rfl

theorem storePart_takeFindAddress (n : BitVec 24) : (takeFindAddress n s).1.storePart = s.storePart := by
  unfold takeFindAddress; split_ifs <;> rfl

theorem storePart_takeReadRecord (n : BitVec 16) : (takeReadRecord n s).1.storePart = s.storePart := by
  unfold takeReadRecord; split_ifs <;> rfl

theorem storePart_takeSetTimebase (p : BitVec 16) (e : Byte) : (takeSetTimebase p e s).1.storePart = s.storePart := by
  unfold takeSetTimebase; split_ifs <;> rfl

theorem storePart_takeSetClose (m : BitVec 24) (v : Byte) : (takeSetClose m v s).1.storePart = s.storePart := by
  unfold takeSetClose; split <;> rfl

theorem storePart_takeClosePeriod : (takeClosePeriod s).1.storePart = s.storePart := by
  unfold takeClosePeriod; split_ifs <;> simp

theorem storePart_takeReadExtract (c : Byte) : (takeReadExtract c s).1.storePart = s.storePart := by
  unfold takeReadExtract
  split_ifs
  · rfl
  · simp only [State.storePart_resumeSweep]; rfl

theorem storePart_takeReadNotices (c : Byte) : (takeReadNotices c s).1.storePart = s.storePart := by
  unfold takeReadNotices; split_ifs <;> rfl

end

/-! ### Starts -/

namespace State.Kept
variable {s : State} {code tag : Byte} {take : Nat → State → State × Reply}

/-- A command whose taking keeps the invariant keeps it when started (R175, R176). -/
theorem start (h : s.Kept [] none) (ht : ∀ place, (take place s).1.Kept [] none) :
    (s.start code tag take).Kept [] none := by
  cases hf : s.responseFull
  · cases hr : take s.freshPlace s with
    | mk t reply =>
      have hk := ht s.freshPlace
      rw [hr] at hk
      cases reply with
      | now result params => rw [State.start_now hf hr]; exact State.Kept.congr hk rfl
      | later => rw [State.start_later hf hr]; exact State.Kept.congr hk rfl
  · rwa [State.start_full hf]

theorem startTraffic (h : s.Kept [] none) (ht : ∀ place, (take place s).1.Kept [] none) :
    (s.startTraffic code tag take).Kept [] none := by
  unfold State.startTraffic
  split
  · exact h
  · exact (h.start ht).afterTraffic

theorem takeSubmit {anew : Bool} {place : Nat} {a : SubmitArgs} (h : s.Kept [] none) :
    (takeSubmit anew place a s).1.Kept [] none := by
  unfold Machine.takeSubmit
  split
  next => exact h
  next p _ =>
    split
    next => exact h
    next =>
      have hk := h.accept (anew := anew) (w := .command place (.submit a)) (src := .commandLink)
        (sub := { number := a.number.toNat, priority := p, body := a.body }) (by simp)
      split <;> rename_i hu <;> rwa [hu] at hk

/-- Every host command keeps the invariant when it is started. -/
theorem startHost (h : s.Kept [] none) (i : Instr) : (startHost i s).Kept [] none := by
  have same : ∀ {t : State}, t.storePart = s.storePart → t.Kept [] none := h.congr
  cases i with
  | format => exact h.start fun _ => h.takeFormat
  | add => exact h.start fun _ => h.takeAdd
  | alter => exact h.start fun _ => h.takeAlter
  | suspend => exact h.start fun _ => h.takeSetState (by simp)
  | resume => exact h.start fun _ => h.takeSetState (by simp)
  | retire => exact h.startTraffic fun _ => h.takeRetire
  | findNumber => exact h.start fun _ => same (storePart_takeFindNumber ..)
  | findAddress => exact h.start fun _ => same (storePart_takeFindAddress ..)
  | readRecord => exact h.start fun _ => same (storePart_takeReadRecord ..)
  | cancel => exact h.startTraffic fun _ => h.takeCancel
  | readMessage => exact h.start fun _ => same (storePart_takeReadMessage ..)
  | trafficReset => exact h.start fun _ => same (storePart_takeTrafficReset ..)
  | setTariff => exact h.start fun _ => same (storePart_takeSetTariff ..)
  | readTariff => exact h.start (take := fun _ => takeReadTariff) fun _ => h
  | adjustBalance => exact h.start fun _ => h.takeAdjustBalance
  | setLine => exact h.start fun _ => same (storePart_takeSetLine ..)
  | enableLine => exact h.start fun _ => same (storePart_takeEnableLine ..)
  | disableLine => exact h.start fun _ => same (storePart_takeDisableLine ..)
  | lineStatus => exact h.start fun _ => same (storePart_takeLineStatus ..)
  | submit => exact h.startTraffic fun _ => h.takeSubmit
  | setZones _ zones => exact h.startTraffic (take := fun _ => takeSetZones zones) fun _ => same rfl
  | setOverride => exact h.startTraffic fun _ => same (storePart_takeSetOverride ..)
  | zoneStatus => exact h.start (take := fun _ => takeZoneStatus) fun _ => h
  | setTransmitter _ d => exact h.start (take := fun _ => takeSetTransmitter d) fun _ => same rfl
  | holdDispatch => exact h.startTraffic fun _ => same (storePart_takeHoldDispatch ..)
  | setArbiter => exact h.start fun _ => same (storePart_takeSetArbiter ..)
  | dispatchStatus => exact h.start (take := fun _ => takeDispatchStatus) fun _ => h
  | setReturnLink => exact h.start fun _ => same (storePart_takeSetReturnLink ..)
  | enableReturnLink => exact h.start fun _ => same (storePart_takeEnableReturnLink ..)
  | disableReturnLink => exact h.start fun _ => same (storePart_takeDisableReturnLink ..)
  | setRetry _ w0 aMax hold => exact h.start (take := fun _ => takeSetRetry w0 aMax hold) fun _ => same rfl
  | returnStatus => exact h.start (take := fun _ => takeReturnStatus) fun _ => h
  | setTimebase => exact h.start fun _ => same (storePart_takeSetTimebase ..)
  | setClock _ minute => exact h.start (take := fun _ => takeSetClock minute) fun _ => same rfl
  | setClose => exact h.start fun _ => same (storePart_takeSetClose ..)
  | closePeriod => exact h.start fun _ => same (storePart_takeClosePeriod ..)
  | readExtract => exact h.start fun _ => same (storePart_takeReadExtract ..)
  | periodStatus => exact h.start (take := fun _ => takePeriodStatus) fun _ => h
  | status => exact h.start (take := fun _ => takeStatus) fun _ => h
  | readNotices => exact h.start fun _ => same (storePart_takeReadNotices ..)
  | _ => exact h

theorem startFrame (h : s.Kept [] none) (f : CommandFrame) : (s.startFrame f).Kept [] none := by
  unfold State.startFrame
  split
  · exact h.congr (by simp)
  · exact h.congr (by simp)
  · split
    · exact h.congr (by simp)
    · exact h.startHost _

theorem startHead (h : s.Kept [] none) : s.startHead.Kept [] none := by
  unfold State.startHead
  split
  next f rest _ =>
    split
    · exact h
    · refine startFrame ?_ f
      exact h.congr rfl
  next => exact h

theorem startQueued (h : s.Kept [] none) (k : Nat) : (Machine.startQueued k s).Kept [] none := by
  induction k generalizing s with
  | zero => exact h
  | succ k ih =>
    unfold Machine.startQueued
    split
    · exact h
    · exact ih h.startHead

theorem startWaiting (h : s.Kept [] none) : s.startWaiting.Kept [] none := h.startQueued _

theorem receiveFrame (h : s.Kept [] none) (bytes : List Byte) : (s.receiveFrame bytes).Kept [] none := by
  unfold State.receiveFrame
  split
  · exact h.congr rfl
  · split_ifs
    · exact h
    · exact h.congr rfl
    · split
      · unfold State.offerFrame
        split
        · refine startWaiting ?_
          exact h.congr rfl
        · exact h.congr rfl
      · exact h.congr rfl

theorem endExchange (h : s.Kept [] none) (x : Exchange) (mosi : List Byte) : (s.endExchange x mosi).Kept [] none := by
  unfold State.endExchange
  dsimp only
  split
  · refine receiveFrame (startWaiting ?_) mosi
    exact h.congr rfl
  · refine receiveFrame ?_ mosi
    exact h.congr rfl

/-! ### Events -/

theorem acceptLine {anew : Bool} (h : s.Kept [] none) (n : Fin 4) : (s.acceptLine anew n).Kept [] none := by
  unfold State.acceptLine
  split
  next => exact h
  next sub _ =>
    have hk := h.accept (anew := anew) (w := .line n) (src := .line n) (sub := sub) (by simp)
    split <;> rename_i hu <;> rw [hu] at hk
    · exact hk
    · exact State.Kept.congr hk rfl
    · exact State.Kept.congr hk rfl

theorem visit (h : s.Kept [] none) : s.visit.Kept [] none := by
  unfold State.visit
  split_ifs
  · exact h.congr (State.storePart_raise _ _)
  · exact h.congr rfl
  · split
    next => exact h.congr rfl
    next r hr =>
      split_ifs
      · exact h.congr rfl
      · exact State.Kept.congr (h.closeRecord hr) rfl

theorem settleReply {place : Nat} {p : State × Reply} (h : p.1.Kept [] none) :
    (State.settleReply place p).Kept [] none := by
  obtain ⟨t, reply⟩ := p
  cases reply with
  | now result params => exact h.congr (State.storePart_complete ..)
  | later => exact h

theorem retake (h : s.Kept [] none) (place : Nat) (c : HeldCommand) : (s.retake place c).1.Kept [] none := by
  cases c with
  | submit => exact h.takeSubmit
  | alter => exact h.takeAlter
  | retire => exact h.takeRetire
  | cancel => exact h.takeCancel
  | adjust => exact h.takeAdjustBalance

/-- A waiter that is no closing entry is taken anew. -/
theorem takeAnew (h : s.Kept [] none) {w : Waiter} (hw : ∀ i holder, w ≠ .closing i holder) :
    (s.takeAnew w).Kept [] none := by
  cases w with
  | line n => exact h.acceptLine n
  | command place c => exact (h.retake place c).settleReply
  | arbiter =>
    simp only [State.takeAnew]
    split
    next ht => exact h.take (s.takeAllowed_iff.mp ht).1
    next => exact h
  | completion => exact h.completeFrame
  | report l => exact h.takeReport
  | expiry => exact h.expire
  | walk => exact h.flushStep
  | closing i holder => exact absurd rfl (hw i holder)

/-- A closing entry has its turn: the record it belongs to is freed, or it waits on (R166). -/
theorem takeAnewClosing {i : Nat} {r : Record} {holder : Holder} (h : s.Kept [] (some i)) (hr : s.record? i = some r)
    (hc : r.closing = true) : (s.takeAnew (.closing i holder)).Kept [] none := by
  simp only [State.takeAnew]
  split
  next t ht =>
    have hk := h.writeClosing hr (h.closings.due hr hc) ht
    cases holder with
    | answer place params => exact State.Kept.congr hk (State.storePart_complete ..)
    | report l => exact State.Kept.congr hk (State.storePart_popReport ..)
    | alone | expiry | walk => exact State.Kept.congr hk rfl
  next => exact h.waitClosing hr hc

theorem waiterTurn (h : s.Kept [] none) : s.waiterTurn.Kept [] none := by
  unfold State.waiterTurn
  split
  next => exact h
  next w rest hw =>
    split
    next =>
      by_cases hclosing : ∃ i holder, w = .closing i holder
      · obtain ⟨i, holder, rfl⟩ := hclosing
        have hcs := h.closings
        have hlist : s.closingIndexes = i :: State.closingIndexes { s with pdu := { s.pdu with waiters := rest } } := by
          simp [State.closingIndexes, hw]
        rw [hlist] at hcs
        obtain ⟨r, hr, hc⟩ := hcs.marked (i := i) List.mem_cons_self
        have hturn : ({ s with pdu := { s.pdu with waiters := rest } } : State).Kept [] (some i) :=
          ⟨h.rising.congr rfl rfl, ⟨h.lists.records, h.lists.slots, h.lists.ready, h.lists.empty⟩, h.numbers, h.addresses,
            h.places, h.owners, hcs.turn⟩
        exact (hturn.takeAnewClosing hr hc).afterTraffic
      · have hne : ∀ i holder, w ≠ .closing i holder := fun i holder e => hclosing ⟨i, holder, e⟩
        refine (takeAnew (h.congr ?_) hne).afterTraffic
        have hlist : s.closingIndexes = State.closingIndexes { s with pdu := { s.pdu with waiters := rest } } := by
          cases w with
          | closing i holder => exact absurd rfl (hne i holder)
          | _ => simp [State.closingIndexes, hw]
        simp [State.storePart, hlist]
    next => exact h

end State.Kept

/-! ### Events that leave all that the store reads -/

section
variable (s : State)

/-- Only closing entries count for the closing marks, so taking a line's entry out keeps their list. -/
theorem State.closingIndexes_erase_line (n : Fin 4) (l : List Waiter) :
    State.closingIndexes { s with pdu := { s.pdu with waiters := l.erase (.line n) } } =
      State.closingIndexes { s with pdu := { s.pdu with waiters := l } } := by
  unfold State.closingIndexes
  dsimp only
  induction l with
  | nil => rfl
  | cons w l ih =>
    by_cases hw : w = .line n
    · rw [hw, List.erase_cons_head]; rfl
    · rw [List.erase_cons_tail (by simpa using hw), List.filterMap_cons, List.filterMap_cons, ih]

@[simp] theorem State.storePart_lineDown (n : Fin 4) : (s.lineDown n).storePart = s.storePart := by
  have hbase : ((State.putLine { s with pdu := { s.pdu with waiters := s.pdu.waiters.erase (.line n) } } n
      (s.line n).goDown).storePart) = s.storePart := by
    rw [State.storePart_putLine]
    simp only [State.storePart, StorePart.mk.injEq, true_and]
    exact State.closingIndexes_erase_line s n s.pdu.waiters
  unfold State.lineDown
  dsimp only
  rw [State.storePart_resumeSweep]
  split
  · exact hbase
  · rw [State.storePart_raise]; exact hbase

theorem State.storePart_intakeCharacter (n : Fin 4) (data : Byte) (mark parity stop : Bool) :
    (s.intakeCharacter n data mark parity stop).storePart = s.storePart := by
  unfold State.intakeCharacter
  dsimp only
  split
  · rfl
  · split_ifs <;> simp
  · split_ifs <;> simp

theorem State.storePart_offerReport (l : Link) (rep : Report) : (s.offerReport l rep).storePart = s.storePart := by
  unfold State.offerReport
  dsimp only
  split_ifs <;> simp

theorem State.storePart_returnCharacter (l : Link) (data : Byte) (bad : Bool) :
    (s.returnCharacter l data bad).storePart = s.storePart := by
  unfold State.returnCharacter State.endReport
  dsimp only
  split
  · rfl
  · split_ifs <;> simp
  · split_ifs
    · split <;> simp [State.storePart_offerReport]
    · simp

theorem State.storePart_minuteTick : s.minuteTick.storePart = s.storePart := by
  unfold State.minuteTick State.advanceMinute
  dsimp only
  split_ifs <;> simp <;> rfl

theorem State.storePart_tickEvent : s.tickEvent.storePart = s.storePart := by
  unfold State.tickEvent
  split_ifs
  · exact s.storePart_minuteTick
  · rfl

theorem State.storePart_readOutStatus : s.readOutStatus.storePart = s.storePart := by
  unfold State.readOutStatus
  split
  · split_ifs <;> rfl
  · rfl

end

/-! ## Every step keeps the invariant -/

/-- A host command is started by the block that owns it. -/
theorem exec_of_host {i : Instr} (s : State) (hi : i.commandCode.isSome = true) :
    Machine.exec i s = .next (startHost i s) := by
  cases i <;> cases hi <;> rfl

/-- Every event of the part keeps the invariant. -/
theorem State.Kept.execEvent {s t : State} {i : Instr} (h : s.Kept [] none) (hi : i.commandCode.isSome = false)
    (ht : Machine.exec i s = .next t) : t.Kept [] none := by
  have same : ∀ {u : State}, u.storePart = s.storePart → u.Kept [] none := h.congr
  have either : ∀ {c : Prop} [Decidable c] {u : State}, (c → u.Kept [] none) → (if c then u else s).Kept [] none := by
    intro c _ u hu; split
    · exact hu ‹_›
    · exact h
  cases i <;> cases hi <;> cases ht
  case hardwareReset => exact State.Kept.afterReset _ _
  case exchangeBegin => exact either fun _ => same rfl
  case statusByteReadOut => exact same s.storePart_readOutStatus
  case exchangeEnd mosi =>
    cases hx : s.clu.exchange with
    | none => exact h
    | some x => exact h.endExchange x mosi
  case commandStart => exact h.startHead
  case formatCompletion => exact either fun hf => h.completeFormat hf
  case flushWalkStep => exact either fun _ => h.flushStep.afterTraffic
  case intakeCharacterReceived => exact same (s.storePart_intakeCharacter ..)
  case characterTaken => exact either fun _ => same rfl
  case interCharacterTimerExpiry => exact either fun _ => same rfl
  case pollSent n =>
    dsimp only
    split
    · exact h
    · exact same (State.storePart_putLine ..)
  case stationWaitExpiry => exact either fun _ => same rfl
  case replyComplete => exact either fun _ => same rfl
  case acceptance => exact either fun _ => (h.acceptLine _).afterTraffic
  case arbiterTake => exact either fun ha => (h.take (s.takeAllowed_iff.mp ha).1).afterTraffic
  case moveToSending => exact either fun hm => (h.move (s.moveAllowed_sending hm)).afterTraffic
  case frameCompletion => exact either fun _ => h.completeFrame.afterTraffic
  case readyChange => exact State.Kept.afterTraffic (same rfl)
  case rejectRise => exact same rfl
  case eholdChange => exact State.Kept.afterTraffic (same rfl)
  case zoneStatusChange => exact State.Kept.afterTraffic (same rfl)
  case returnCharacterReceived => exact same (s.storePart_returnCharacter ..)
  case reportTimeout => exact either fun _ => same (State.storePart_putReceiver ..)
  case reportTaken => exact either fun _ => h.takeReport.afterTraffic
  case expiry => exact either fun _ => h.expire.afterTraffic
  case tick => exact same s.storePart_tickEvent
  case minuteAdvance => exact either fun _ => same s.storePart_minuteTick
  case sweepVisit =>
    refine either fun _ => ?_
    unfold State.sweepVisit
    split
    · exact same rfl
    · exact h.visit
  case extractWaiterTurn => exact h.waiterTurn

/-- Every command of the table keeps the invariant. -/
theorem State.Kept.exec {s t : State} {i : Instr} (h : s.Kept [] none) (ht : Machine.exec i s = .next t) :
    t.Kept [] none := by
  cases hi : i.commandCode.isSome with
  | false => exact h.execEvent hi ht
  | true =>
    rw [exec_of_host s hi] at ht
    cases ht
    exact h.startHost i

theorem State.Kept.step {s t : State} (h : s.Kept [] none) (ht : step s = .next t) : t.Kept [] none := by
  unfold Machine.step at ht
  split at ht
  next => cases ht; exact h
  next i rest _ => exact State.Kept.exec (s := { s with pending := rest }) (h.congr rfl) ht

/-- Settles O60: the five parts of the store invariant and its indexes are one proposition, `State.Kept`, which every
row of the command table keeps. -/
theorem stepKeepsStore : Obligations.StepKeepsStore := by
  intro s t hc hg hstep
  have hk := State.Kept.step ((State.kept_iff (State.rising_of_canonical hc)).mpr hg) hstep
  exact (State.kept_iff hk.rising).mp hk

end Sys2Proof.Machine
end


section
namespace Sys2Proof.Machine
open Sys2Proof

/-! ## SUSPEND and RESUME -/

theorem State.ready_eq_false {s : State} (h : s.stu.state ≠ .ready) : s.ready = false := by
  simpa [State.ready] using h

theorem State.ready_eq_true {s : State} (h : s.stu.state = .ready) : s.ready = true := by
  simpa [State.ready] using h

section
variable {s : State} {st : RecordState} {number : BitVec 24}

theorem takeSetState_not_ready (h : s.stu.state ≠ .ready) :
    takeSetState st number s = (s, .now .tableNotReady []) := by
  simp [takeSetState, State.ready_eq_false h]

theorem takeSetState_unknown (h : s.stu.state = .ready) (hf : s.findNumber number.toNat = none) :
    takeSetState st number s = (s, .now .unknownSubscriber []) := by
  simp [takeSetState, State.ready_eq_true h, hf]

theorem takeSetState_found {i : Nat} {r : Record} (h : s.stu.state = .ready) (hf : s.findNumber number.toNat = some i)
    (hr : s.record? i = some r) :
    takeSetState st number s =
      ({ s with stu := { s.stu with records := s.stu.records.put i { r with state := st } } },
        .now .ok (nat2 i ++ nat1 st.code)) := by
  simp [takeSetState, State.ready_eq_true h, hf, State.updateRecord_eq hr, State.putRecord]

end

/-- Settles O21: one lemma for each outcome of the setting of a record's state, used for both commands. -/
theorem suspendAndResume : Obligations.SuspendAndResume := by
  intro tag number s hfull
  have answers : ∀ (code : Byte) (st : RecordState) {t : State} {result : Result} {params : List Byte},
      takeSetState st number s = (t, .now result params) →
      s.start code tag (fun _ => takeSetState st number) = t.respond ⟨code, tag, result, params⟩ :=
    fun _ _ _ _ _ ht => State.start_now hfull ht
  refine ⟨fun hs => ⟨?_, ?_⟩, fun hs hf => ⟨?_, ?_⟩, fun i r hs hf hr => ⟨?_, ?_⟩⟩
  · exact congrArg Host.Outcome.next (answers 0x13 .suspended (takeSetState_not_ready hs))
  · exact congrArg Host.Outcome.next (answers 0x14 .active (takeSetState_not_ready hs))
  · exact congrArg Host.Outcome.next (answers 0x13 .suspended (takeSetState_unknown hs hf))
  · exact congrArg Host.Outcome.next (answers 0x14 .active (takeSetState_unknown hs hf))
  · exact congrArg Host.Outcome.next (answers 0x13 .suspended (takeSetState_found hs hf hr))
  · exact congrArg Host.Outcome.next (answers 0x14 .active (takeSetState_found hs hf hr))

end Sys2Proof.Machine
end


section
namespace Sys2Proof.Machine
open Sys2Proof

/-! ## ALTER -/

/-! ### Codes and fields that may be carried -/

/-- A byte is a code exactly when it has the value of the code. -/
theorem byte_eq_iff {c : Byte} {n : Nat} (h : n < 256) : c = BitVec.ofNat 8 n ↔ c.toNat = n := by
  rw [← BitVec.toNat_inj, BitVec.toNat_ofNat, Nat.mod_eq_of_lt h]

theorem classOf_isSome (c : Byte) : (classOf c).isSome = decide (c.toNat ≤ 2) := by
  have h0 := byte_eq_iff (c := c) (n := 0) (by decide)
  have h1 := byte_eq_iff (c := c) (n := 1) (by decide)
  have h2 := byte_eq_iff (c := c) (n := 2) (by decide)
  unfold classOf
  split_ifs <;> simp <;> grind

theorem kindOf_isSome (k : Byte) : (kindOf k).isSome = decide (k.toNat ≤ 1) := by
  have h0 := byte_eq_iff (c := k) (n := 0) (by decide)
  have h1 := byte_eq_iff (c := k) (n := 1) (by decide)
  unfold kindOf
  split_ifs <;> simp <;> grind

theorem planOf_isSome (p : Byte) (amount : Nat) : (planOf p amount).isSome = decide (p.toNat ≤ 1) := by
  have h0 := byte_eq_iff (c := p) (n := 0) (by decide)
  have h1 := byte_eq_iff (c := p) (n := 1) (by decide)
  unfold planOf
  split_ifs <;> simp <;> grind

/-- A field that is not carried passes its check, and so the check fails for a carried value alone. -/
theorem not_carried {α : Type} (test : α → Bool) (o : Option α) : (!carried test o) = o.any fun v => !test v := by
  cases o <;> rfl

theorem any_and_const {α : Type} (test : α → Bool) (b : Bool) (o : Option α) :
    o.any (fun v => test v && b) = (o.any test && b) := by
  cases o <;> simp

/-- The checks of an ALTER that read the command alone (R15). -/
theorem alterInRange_iff (a : AlterArgs) : alterInRange a = false ↔
    numberInRange a.number = false ∨ a.newNumber.any (fun v => !numberInRange v) ∨
      a.newAddress.any (fun v => !addressInRange v) ∨ a.newClass.any (fun c => decide (2 < c.toNat)) ∨
      a.newKind.any (fun k => decide (1 < k.toNat)) ∨ a.newZones = some 0 ∨
      a.newPlan.any (fun p => decide (1 < p.1.toNat)) ∨ (a.newCeiling.isSome ∧ a.newPlan.isSome) := by
  have hzones : carried (fun z => decide (z ≠ 0)) a.newZones = false ↔ a.newZones = some 0 := by
    cases a.newZones <;> simp [carried]
  have hfails : ∀ {α : Type} (test : α → Bool) (o : Option α),
      carried test o = false ↔ o.any (fun v => !test v) = true := by
    intro α test o; rw [← not_carried]; simp
  simp only [alterInRange, Bool.and_eq_false_iff, hzones, hfails, classOf_isSome, kindOf_isSome, planOf_isSome,
    Bool.not_eq_false', Bool.and_eq_true, or_assoc, ← decide_not, not_le]

/-! ### The checks that read the table -/

section
variable {s t : State} {a : AlterArgs} {i : Nat} {r : Record}

theorem State.chainAt_unlinkNumber (s : State) (old i : Nat) : chainAt (s.unlinkNumber old i).stu.numberIndex =
    Function.update (chainAt s.stu.numberIndex) (s.stu.numberBucket old)
      ((chainAt s.stu.numberIndex (s.stu.numberBucket old)).erase i) := chainAt_putChain_fun ..

theorem State.chainAt_unlinkAddress (s : State) (old i : Nat) : chainAt (s.unlinkAddress old i).stu.addressIndex =
    Function.update (chainAt s.stu.addressIndex) (s.stu.addressBucket old)
      ((chainAt s.stu.addressIndex (s.stu.addressBucket old)).erase i) := chainAt_putChain_fun ..

/-- Taking a record out of one chain leaves each chain at least as long as without the record. -/
theorem length_erase_le_update (chain : Nat → List Nat) (i b c : Nat) :
    ((chain c).erase i).length ≤ (Function.update chain b ((chain b).erase i) c).length := by
  by_cases h : c = b
  · subst h; simp
  · rw [Function.update_of_ne h]; exact List.length_erase_le

/-- A record that only one chain holds is taken out of every chain by taking it out of that one. -/
theorem update_erase_eq {chain : Nat → List Nat} {i b : Nat} (h : ∀ c, c ≠ b → i ∉ chain c) (c : Nat) :
    Function.update chain b ((chain b).erase i) c = (chain c).erase i := by
  by_cases hc : c = b
  · subst hc; simp
  · rw [Function.update_of_ne hc, List.erase_of_not_mem (h c hc)]

/-- The chain of a new number without the record is full, and so has no room (R9). -/
theorem State.numberChainRoom_eq_false {old new : Nat}
    (h : 12 ≤ ((chainAt s.stu.numberIndex (s.stu.numberBucket new)).erase i).length) :
    s.numberChainRoom i old new = false := by
  have hle := length_erase_le_update (chainAt s.stu.numberIndex) i (s.stu.numberBucket old) (s.stu.numberBucket new)
  simp only [State.numberChainRoom, chainHasRoom, State.chainAt_unlinkNumber, Config.chainLimit]
  simp; omega

theorem State.addressChainRoom_eq_false {old new : Nat}
    (h : 12 ≤ ((chainAt s.stu.addressIndex (s.stu.addressBucket new)).erase i).length) :
    s.addressChainRoom i old new = false := by
  have hle := length_erase_le_update (chainAt s.stu.addressIndex) i (s.stu.addressBucket old) (s.stu.addressBucket new)
  simp only [State.addressChainRoom, chainHasRoom, State.chainAt_unlinkAddress, Config.chainLimit]
  simp; omega

/-- The chain of a new number has room for a record that only the chain of its old number holds (R9). -/
theorem State.numberChainRoom_eq_true {old new : Nat}
    (hi : ∀ b, b ≠ s.stu.numberBucket old → i ∉ chainAt s.stu.numberIndex b)
    (h : ((chainAt s.stu.numberIndex (s.stu.numberBucket new)).erase i).length < 12) :
    s.numberChainRoom i old new = true := by
  simpa only [State.numberChainRoom, chainHasRoom, State.chainAt_unlinkNumber, update_erase_eq hi, Config.chainLimit,
    decide_eq_true_eq] using h

theorem State.addressChainRoom_eq_true {old new : Nat}
    (hi : ∀ b, b ≠ s.stu.addressBucket old → i ∉ chainAt s.stu.addressIndex b)
    (h : ((chainAt s.stu.addressIndex (s.stu.addressBucket new)).erase i).length < 12) :
    s.addressChainRoom i old new = true := by
  simpa only [State.addressChainRoom, chainHasRoom, State.chainAt_unlinkAddress, update_erase_eq hi, Config.chainLimit,
    decide_eq_true_eq] using h

/-- Checks 4 to 9 of an ALTER, each as the condition under which it fails (R15). -/
theorem State.alterRefusal_eq (s : State) (a : AlterArgs) (i : Nat) (r : Record) : s.alterRefusal a i r =
    if a.newAddress.any (fun v => decide (v.toNat ≠ r.address)) ∧ r.live ≠ [] then some .addressBusy
    else if (a.newClass.any (fun c => decide (classOf c ≠ some r.cls)) ∨
        a.newKind.any (fun k => decide (kindOf k ≠ some r.kind))) ∧ r.live ≠ [] then some .classBusy
    else if a.newPlan.isSome ∧ r.pending ≠ 0 then some .planBusy
    else if a.newNumber.any (fun v => decide (v.toNat ≠ r.number) && (s.findNumber v.toNat).isSome) then
      some .numberInUse
    else if a.newAddress.any (fun v => decide (v.toNat ≠ r.address) && (s.findAddress v.toNat).isSome) then
      some .addressInUse
    else if a.newNumber.any (fun v => decide (v.toNat ≠ r.number) && !s.numberChainRoom i r.number v.toNat) ∨
        a.newAddress.any (fun v => decide (v.toNat ≠ r.address) && !s.addressChainRoom i r.address v.toNat) then
      some .chainFull
    else none := by
  have hlive : r.live ≠ [] ↔ (!r.live.isEmpty) = true := by simp
  simp only [State.alterRefusal, not_carried, Bool.not_and, Bool.not_or, any_and_const, Bool.and_eq_true,
    Bool.or_eq_true, hlive, or_and_right]
  simp [bne, beq_eq_decide]

/-! ### What an ALTER answers -/

variable {place : Nat} {why : Result}

theorem takeAlter_not_ready (h : s.stu.state ≠ .ready) : takeAlter false place a s = (s, .now .tableNotReady []) := by
  simp [takeAlter, State.ready_eq_false h]

theorem takeAlter_out_of_range (h : s.stu.state = .ready) (ha : alterInRange a = false) :
    takeAlter false place a s = (s, .now .badField []) := by
  simp [takeAlter, State.ready_eq_true h, ha]

theorem takeAlter_unknown (h : s.stu.state = .ready) (ha : alterInRange a = true)
    (hf : s.findNumber a.number.toNat = none) : takeAlter false place a s = (s, .now .unknownSubscriber []) := by
  simp [takeAlter, State.ready_eq_true h, ha, hf]

/-- The checks that read the record refuse the ALTER. -/
theorem takeAlter_refused (h : s.stu.state = .ready) (ha : alterInRange a = true)
    (hf : s.findNumber a.number.toNat = some i) (hr : s.record? i = some r)
    (hwhy : (if ceilingFits a r = false then some .badField else s.alterRefusal a i r) = some why) :
    takeAlter false place a s = (s, .now why []) := by
  by_cases hc : ceilingFits a r = false
  · rw [if_pos hc, Option.some_inj] at hwhy
    simp [takeAlter, State.ready_eq_true h, ha, hf, hr, hc, hwhy]
  · rw [if_neg hc] at hwhy
    simp [takeAlter, State.ready_eq_true h, ha, hf, hr, hc, hwhy]

/-- An ALTER that passes its checks waits where the touch-sweep it needs cannot be made (R73). -/
theorem takeAlter_waits (h : s.stu.state = .ready) (ha : alterInRange a = true)
    (hf : s.findNumber a.number.toNat = some i) (hr : s.record? i = some r) (hc : ceilingFits a r = true)
    (hn : s.alterRefusal a i r = none) (hneeds : a.newAllowance.isSome = true) (ht : s.touch false i = none) :
    takeAlter false place a s = (s.wait false (.command place (.alter a)), .later) := by
  simp [takeAlter, State.ready_eq_true h, ha, hf, hr, hc, hn, hneeds, ht]

/-- An ALTER that passes its checks is made, after the touch-sweep it needs (R16, R73). -/
theorem takeAlter_made {r₁ : Record} (h : s.stu.state = .ready) (ha : alterInRange a = true)
    (hf : s.findNumber a.number.toNat = some i) (hr : s.record? i = some r) (hc : ceilingFits a r = true)
    (hn : s.alterRefusal a i r = none) (ht : (if a.newAllowance.isSome then s.touch false i else some s) = some t)
    (hr₁ : t.record? i = some r₁) :
    takeAlter false place a s = (t.alterRecord i r₁ a, .now .ok (alterReply i (r₁.alter a) a)) := by
  simp [takeAlter, State.ready_eq_true h, ha, hf, hr, hc, hn, ht, hr₁]

/-- A new ceiling does not fit a PREPAID record, where no new plan comes with it (R15). -/
theorem ceilingFits_eq_false (ha : alterInRange a = true) :
    ceilingFits a r = false ↔ a.newCeiling.isSome ∧ r.plan.code = 0 := by
  have hplan : a.newCeiling.isSome = true → a.newPlan = none := by
    have h := mt (alterInRange_iff a).mpr (by simp [ha])
    simp only [not_or, not_and, Option.not_isSome_iff_eq_none] at h
    obtain ⟨-, -, -, -, -, -, -, h⟩ := h
    exact h
  have hprepaid : r.isPrepaid = true ↔ r.plan.code = 0 := by
    unfold Record.isPrepaid
    cases r.plan <;> simp [Plan.code]
  simp only [ceilingFits, Bool.not_eq_false', Bool.and_eq_true, hprepaid]
  exact ⟨fun ⟨⟨h1, _⟩, h2⟩ => ⟨h1, h2⟩, fun ⟨h1, h2⟩ => ⟨⟨h1, by simp [hplan h1]⟩, h2⟩⟩

/-- The last check of R15, as the chains stand without the record. -/
theorem State.alterRefusal_full
    (h : a.newNumber.any (fun v => decide (v.toNat ≠ r.number) &&
          decide (12 ≤ ((chainAt s.stu.numberIndex (s.stu.numberBucket v.toNat)).erase i).length)) ∨
        a.newAddress.any (fun v => decide (v.toNat ≠ r.address) &&
          decide (12 ≤ ((chainAt s.stu.addressIndex (s.stu.addressBucket v.toNat)).erase i).length))) :
    a.newNumber.any (fun v => decide (v.toNat ≠ r.number) && !s.numberChainRoom i r.number v.toNat) ∨
      a.newAddress.any (fun v => decide (v.toNat ≠ r.address) && !s.addressChainRoom i r.address v.toNat) := by
  simp only [Option.any_eq_true, Bool.and_eq_true, decide_eq_true_eq] at h ⊢
  refine h.imp (fun ⟨v, hv, hne, hlong⟩ => ⟨v, hv, hne, ?_⟩) fun ⟨v, hv, hne, hlong⟩ => ⟨v, hv, hne, ?_⟩
  · simp [State.numberChainRoom_eq_false hlong]
  · simp [State.addressChainRoom_eq_false hlong]

end

/-! ### The altered record and its chains -/

theorem classOf_getD {o : Option Byte} (h : ∀ c ∈ o, c.toNat ≤ 2) (d : ServiceClass) : (o.bind classOf).getD d =
    o.elim d fun c => if c = 0 then .tone else if c = 1 then .numeric else .alpha := by
  cases o with
  | none => rfl
  | some c =>
    have hc : (classOf c).isSome = true := by simpa [classOf_isSome] using h
    revert hc
    simp only [Option.bind_some, Option.elim_some, classOf]
    split_ifs <;> simp

theorem kindOf_getD {o : Option Byte} (h : ∀ k ∈ o, k.toNat ≤ 1) (d : PagerKind) : (o.bind kindOf).getD d =
    o.elim d fun k => if k = 0 then .oneWay else .twoWay := by
  cases o with
  | none => rfl
  | some k =>
    have hk : (kindOf k).isSome = true := by simpa [kindOf_isSome] using h
    revert hk
    simp only [Option.bind_some, Option.elim_some, kindOf]
    split_ifs <;> simp

theorem planOf_getD {o : Option (Byte × BitVec 24)} (h : ∀ p ∈ o, p.1.toNat ≤ 1) (d : Plan) :
    (o.bind fun p => planOf p.1 p.2.toNat).getD d =
      o.elim d fun p => if p.1 = 0 then .prepaid p.2.toNat else .account p.2.toNat := by
  cases o with
  | none => rfl
  | some p =>
    have hp : (planOf p.1 p.2.toNat).isSome = true := by simpa [planOf_isSome] using h
    revert hp
    simp only [Option.bind_some, Option.elim_some, planOf]
    split_ifs <;> simp

section
variable {s t : State} {a : AlterArgs} {i : Nat} {r : Record}

/-- The record of an ALTER in range, field by field (R16, R72 to R74). -/
theorem Record.alter_of_inRange (hcls : ∀ c ∈ a.newClass, c.toNat ≤ 2) (hkind : ∀ k ∈ a.newKind, k.toNat ≤ 1)
    (hplan : ∀ p ∈ a.newPlan, p.1.toNat ≤ 1) (hceiling : a.newCeiling ≠ none → ∃ ceiling, r.plan = .account ceiling) :
    r.alter a = { r with
      number := a.newNumber.elim r.number (·.toNat)
      address := a.newAddress.elim r.address (·.toNat)
      cls := a.newClass.elim r.cls fun c => if c = 0 then .tone else if c = 1 then .numeric else .alpha
      kind := a.newKind.elim r.kind fun k => if k = 0 then .oneWay else .twoWay
      presence := if a.newKind.elim r.kind (fun k => if k = 0 then .oneWay else .twoWay) = r.kind then r.presence
        else .unknown
      zones := a.newZones.getD r.zones
      plan := a.newPlan.elim (a.newCeiling.elim r.plan fun c => .account c.toNat)
        fun p => if p.1 = 0 then .prepaid p.2.toNat else .account p.2.toNat
      allowance := a.newAllowance.elim r.allowance fun v => max v.toNat r.used } := by
  have hwith : (a.newCeiling.elim r.plan fun c => r.plan.withCeiling c.toNat) =
      a.newCeiling.elim r.plan fun c => .account c.toNat := by
    cases hc : a.newCeiling with
    | none => rfl
    | some c =>
      obtain ⟨ceiling, hp⟩ := hceiling (by simp [hc])
      simp [hp, Plan.withCeiling]
  rw [Record.alter_eq, classOf_getD hcls, kindOf_getD hkind, planOf_getD hplan, hwith]

/-- Each chain of the number index once the record has moved to its new number. -/
theorem State.chainAt_moveNumber_of_only {old new : Nat}
    (hi : ∀ b, b ≠ s.stu.numberBucket old → i ∉ chainAt s.stu.numberIndex b) (b : Nat) :
    chainAt (s.moveNumber i old new).stu.numberIndex b =
      if new = old then chainAt s.stu.numberIndex b
      else (if b = s.stu.numberBucket new then [i] else []) ++ (chainAt s.stu.numberIndex b).erase i := by
  rw [State.chainAt_moveNumber]
  by_cases h : new = old
  · simp [h]
  · rw [if_neg (Ne.symm h), if_neg h]
    by_cases hb : b = s.stu.numberBucket new
    · subst hb; simp [update_erase_eq hi]
    · simp [hb, update_erase_eq hi]

theorem State.chainAt_moveAddress_of_only {old new : Nat}
    (hi : ∀ b, b ≠ s.stu.addressBucket old → i ∉ chainAt s.stu.addressIndex b) (b : Nat) :
    chainAt (s.moveAddress i old new).stu.addressIndex b =
      if new = old then chainAt s.stu.addressIndex b
      else (if b = s.stu.addressBucket new then [i] else []) ++ (chainAt s.stu.addressIndex b).erase i := by
  rw [State.chainAt_moveAddress]
  by_cases h : new = old
  · simp [h]
  · rw [if_neg (Ne.symm h), if_neg h]
    by_cases hb : b = s.stu.addressBucket new
    · subst hb; simp [update_erase_eq hi]
    · simp [hb, update_erase_eq hi]

theorem State.record?_alterRecord (s : State) (i : Nat) (r : Record) (a : AlterArgs) :
    (s.alterRecord i r a).record? = Function.update s.record? i (some (r.alter a)) := by
  rw [← State.record?_putRecord_fun]
  exact State.record?_eq (by rw [State.alterRecord_stu]; rfl)

/-- A lookup by number names a record of that number. -/
theorem State.number_of_find {n : Nat} (hf : s.findNumber n = some i) (hr : s.record? i = some r) : r.number = n := by
  have h := List.find?_some hf
  simpa [hr] using h

/-- The altered record is found by its number: at the head of the chain of a new one, or where it was (R16). -/
theorem State.findNumber_alterRecord (hr : s.record? i = some r) (hf : s.findNumber r.number = some i) :
    (s.alterRecord i r a).findNumber (r.alter a).number = some i := by
  have hrec := s.record?_alterRecord i r a
  have hbucket : (s.alterRecord i r a).stu.numberBucket = s.stu.numberBucket := by rw [State.alterRecord_stu]; rfl
  have hindex : (s.alterRecord i r a).stu.numberIndex =
      (s.moveNumber i r.number (r.alter a).number).stu.numberIndex := by rw [State.alterRecord_stu]
  unfold State.findNumber
  rw [hbucket, hindex, hrec, State.chainAt_moveNumber]
  split
  next he =>
    rw [← he, ← hf, State.findNumber]
    congr 1
    funext j
    by_cases hj : j = i
    · subst hj; simp [hr, he]
    · rw [Function.update_of_ne hj]
  next => simp

theorem State.findAddress_alterRecord (hr : s.record? i = some r) (hf : s.findAddress r.address = some i) :
    (s.alterRecord i r a).findAddress (r.alter a).address = some i := by
  have hrec := s.record?_alterRecord i r a
  have hbucket : (s.alterRecord i r a).stu.addressBucket = s.stu.addressBucket := by rw [State.alterRecord_stu]; rfl
  have hindex : (s.alterRecord i r a).stu.addressIndex =
      (s.moveAddress i r.address (r.alter a).address).stu.addressIndex := by rw [State.alterRecord_stu]
  unfold State.findAddress
  rw [hbucket, hindex, hrec, State.chainAt_moveAddress]
  split
  next he =>
    rw [← he, ← hf, State.findAddress]
    congr 1
    funext j
    by_cases hj : j = i
    · subst hj; simp [hr, he]
    · rw [Function.update_of_ne hj]
  next => simp

end

/-! ### When an ALTER passes its checks -/

section
variable {s t : State} {a : AlterArgs} {i : Nat} {r : Record}

/-- A test that no carried value meets. -/
theorem not_any_of_forall {α : Type} {test : α → Bool} {o : Option α} (h : ∀ v ∈ o, test v = false) :
    ¬ o.any test = true := by
  cases o with
  | none => simp
  | some v => simp [h v rfl]

theorem alterInRange_of_forall (hnumber : numberInRange a.number = true)
    (hnew : ∀ v ∈ a.newNumber, numberInRange v = true) (hadr : ∀ v ∈ a.newAddress, addressInRange v = true)
    (hcls : ∀ c ∈ a.newClass, c.toNat ≤ 2) (hkind : ∀ k ∈ a.newKind, k.toNat ≤ 1) (hzones : a.newZones ≠ some 0)
    (hplan : ∀ p ∈ a.newPlan, p.1.toNat ≤ 1) (hboth : a.newCeiling = none ∨ a.newPlan = none) :
    alterInRange a = true := by
  rw [← Bool.not_eq_false, alterInRange_iff]
  rintro (h | h | h | h | h | h | h | ⟨hc, hp⟩)
  · simp [hnumber] at h
  · exact not_any_of_forall (fun v hv => by simp [hnew v hv]) h
  · exact not_any_of_forall (fun v hv => by simp [hadr v hv]) h
  · exact not_any_of_forall (fun c hc => by simpa using hcls c hc) h
  · exact not_any_of_forall (fun k hk => by simpa using hkind k hk) h
  · exact hzones h
  · exact not_any_of_forall (fun p hp => by simpa using hplan p hp) h
  · rcases hboth with hnone | hnone <;> simp [hnone] at hc hp

theorem ceilingFits_of_account (ha : alterInRange a = true)
    (hceiling : a.newCeiling ≠ none → ∃ ceiling, r.plan = .account ceiling) : ceilingFits a r = true := by
  rw [← Bool.not_eq_false, ceilingFits_eq_false ha]
  rintro ⟨hcarried, hprepaid⟩
  obtain ⟨c, hc⟩ := hceiling (Option.isSome_iff_ne_none.mp hcarried)
  simp [hc, Plan.code] at hprepaid

theorem State.alterRefusal_eq_none (hadr : ∀ v ∈ a.newAddress, v.toNat = r.address ∨ r.live = [])
    (hcls : ∀ c ∈ a.newClass, classOf c = some r.cls ∨ r.live = [])
    (hkind : ∀ k ∈ a.newKind, kindOf k = some r.kind ∨ r.live = []) (hplan : a.newPlan = none ∨ r.pending = 0)
    (hnum : ∀ v ∈ a.newNumber, v.toNat = r.number ∨ (s.findNumber v.toNat = none ∧
      ((chainAt s.stu.numberIndex (s.stu.numberBucket v.toNat)).erase i).length < 12))
    (hfree : ∀ v ∈ a.newAddress, v.toNat = r.address ∨ (s.findAddress v.toNat = none ∧
      ((chainAt s.stu.addressIndex (s.stu.addressBucket v.toNat)).erase i).length < 12))
    (hin : ∀ b, b ≠ s.stu.numberBucket r.number → i ∉ chainAt s.stu.numberIndex b)
    (hia : ∀ b, b ≠ s.stu.addressBucket r.address → i ∉ chainAt s.stu.addressIndex b) :
    s.alterRefusal a i r = none := by
  rw [State.alterRefusal_eq, if_neg, if_neg, if_neg, if_neg, if_neg, if_neg]
  · rintro (h | h)
    · refine not_any_of_forall (fun v hv => ?_) h
      rcases hnum v hv with he | ⟨-, hroom⟩
      · simp [he]
      · simp [State.numberChainRoom_eq_true hin hroom]
    · refine not_any_of_forall (fun v hv => ?_) h
      rcases hfree v hv with he | ⟨-, hroom⟩
      · simp [he]
      · simp [State.addressChainRoom_eq_true hia hroom]
  · exact not_any_of_forall fun v hv => by rcases hfree v hv with he | ⟨he, -⟩ <;> simp [he]
  · exact not_any_of_forall fun v hv => by rcases hnum v hv with he | ⟨he, -⟩ <;> simp [he]
  · rintro ⟨hcarried, hp⟩
    rcases hplan with hnone | hzero
    · simp [hnone] at hcarried
    · exact hp hzero
  · rintro ⟨h | h, hlive⟩
    · exact not_any_of_forall (fun c hc => by simpa [hlive] using hcls c hc) h
    · exact not_any_of_forall (fun k hk => by simpa [hlive] using hkind k hk) h
  · rintro ⟨h, hlive⟩
    exact not_any_of_forall (fun v hv => by simpa [hlive] using hadr v hv) h

end

/-! ### The state after an ALTER -/

section
variable {s t : State} {b : Bool} {i : Nat} {r r' : Record}

/-- A touch-sweep, or none, leaves all but the records, the entries and the extract. -/
theorem maybeTouch_frame (h : (if b then s.touch false i else some s) = some t) :
    t.pins = s.pins ∧ t.msu = s.msu ∧ t.chu = s.chu ∧ t.lines = s.lines ∧ t.dsu = s.dsu ∧ t.rla = s.rla ∧
    t.rlb = s.rlb ∧ t.aru = s.aru ∧ t.clu = s.clu ∧ t.stu = { s.stu with records := t.stu.records } ∧
    t.pdu.period = s.pdu.period ∧ t.pdu.tick = s.pdu.tick := by
  split at h
  · obtain ⟨hpins, hmsu, hchu, hlines, hdsu, hrla, hrlb, haru, hclu, -, -, hstu, hperiod, htick, -⟩ :=
      State.touch_frame h
    exact ⟨hpins, hmsu, hchu, hlines, hdsu, hrla, hrlb, haru, hclu, hstu, hperiod, htick⟩
  · cases h; simp

/-- A record stays in the table through a touch-sweep. -/
theorem maybeTouch_record (h : (if b then s.touch false i else some s) = some t) (hr : s.record? i = some r) :
    ∃ r', t.record? i = some r' := by
  split at h
  · exact ⟨_, State.touch_record hr h⟩
  · cases h; exact ⟨r, hr⟩

theorem maybeTouch_find (h : (if b then s.touch false i else some s) = some t) (n : Nat) :
    t.findNumber n = s.findNumber n ∧ t.findAddress n = s.findAddress n := by
  split at h
  · exact State.touch_find h n
  · cases h; exact ⟨rfl, rfl⟩

/-- A touch-sweep, or none, changes none of these fields. -/
theorem maybeTouch_fields (h : (if b then s.touch false i else some s) = some t) (hr : s.record? i = some r)
    (hr' : t.record? i = some r') :
    r'.number = r.number ∧ r'.address = r.address ∧ r'.cls = r.cls ∧ r'.kind = r.kind ∧ r'.zones = r.zones ∧
      r'.presence = r.presence ∧ r'.plan = r.plan ∧ r'.allowance = r.allowance ∧ r'.live = r.live := by
  split at h
  · obtain ⟨-, hnumber, haddress, hcls, hkind, hzones, hpresence, hplan, -, hallowance, hlive, -⟩ :=
      State.touch_fields h hr hr'
    exact ⟨hnumber, haddress, hcls, hkind, hzones, hpresence, hplan, hallowance, hlive⟩
  · cases h
    rw [hr] at hr'
    cases hr'
    simp

/-- An ALTER changes the subscriber table alone. -/
theorem State.alterRecord_frame (s : State) (i : Nat) (r : Record) (a : AlterArgs) :
    s.alterRecord i r a = { s with stu := (s.alterRecord i r a).stu } := by
  simp only [State.alterRecord, State.moveNumber, State.moveAddress]
  split <;> split <;> rfl

end

end Sys2Proof.Machine
end


section
namespace Sys2Proof.Machine
open Sys2Proof

/-! ### The ALTER obligation -/

/-- An ALTER whose taking answers at once. -/
theorem exec_alter_now {tag : Byte} {a : AlterArgs} {s t : State} {why : Result} {params : List Byte}
    (hfull : s.responseFull = false) (ht : takeAlter false s.freshPlace a s = (t, .now why params)) :
    exec (.alter tag a) s = .next (t.respond ⟨0x12, tag, why, params⟩) :=
  congrArg Host.Outcome.next (State.start_now (take := fun place => takeAlter false place a) hfull ht)

/-- An ALTER that waits. -/
theorem exec_alter_later {tag : Byte} {a : AlterArgs} {s t : State} (hfull : s.responseFull = false)
    (ht : takeAlter false s.freshPlace a s = (t, .later)) :
    exec (.alter tag a) s = .next { t with clu := { t.clu with
      inProgress := t.clu.inProgress ++ [⟨s.freshPlace, 0x12, tag⟩] } } :=
  congrArg Host.Outcome.next (State.start_later (take := fun place => takeAlter false place a) hfull ht)

/-- The response FIFO after a response depends on the command link alone. -/
theorem State.respond_clu_congr {s t : State} (h : t.clu = s.clu) (x : Response) :
    (t.respond x).clu = (s.respond x).clu := by
  simp only [State.respond, h]

/-- The response of an ALTER carries the allowance as written (R73). -/
theorem alterReply_alter (i : Nat) (r : Record) (a : AlterArgs) : alterReply i (r.alter a) a =
    nat2 i ++ a.newAllowance.elim [] fun v => nat2 (max v.toNat r.used) := by
  rw [alterReply, Record.alter_eq]
  cases a.newAllowance <;> rfl

/-- Settles O23. The checks of R15 are made in the order of `State.alterRefusal_eq`, and an ALTER that passes them is
`State.alterRecord` after its touch-sweep. -/
theorem alterMakesItsChanges : Obligations.AlterMakesItsChanges := by
  intro tag a s hfull
  refine ⟨fun why h => exec_alter_now hfull ?_, ?_⟩
  · split_ifs at h with hready hrange
    · rw [h, takeAlter_not_ready hready]
    · rw [h, takeAlter_out_of_range (not_not.mp hready) ((alterInRange_iff a).mpr hrange)]
    · have hready := not_not.mp hready
      have ha : alterInRange a = true := by
        simpa only [Bool.not_eq_false] using mt (alterInRange_iff a).mp hrange
      split at h
      next hf => rw [h, takeAlter_unknown hready ha hf]
      next i hf =>
        obtain ⟨r, hr, h⟩ := h
        refine takeAlter_refused hready ha hf hr ?_
        simp only [State.alterRefusal_eq, ceilingFits_eq_false ha]
        split_ifs at h with h1 h2 h3 h4 h5 h6
        · rw [if_pos h1, h]
        · rw [if_neg h1, if_pos h2, h]
        · rw [if_neg h1, if_neg h2, if_pos h3, h]
        · rw [if_neg h1, if_neg h2, if_neg h3, if_pos h4, h]
        · rw [if_neg h1, if_neg h2, if_neg h3, if_neg h4, if_pos h5, h]
        · rw [if_neg h1, if_neg h2, if_neg h3, if_neg h4, if_neg h5, if_pos h6, h]
        · obtain ⟨hlong, rfl⟩ := h
          rw [if_neg h1, if_neg h2, if_neg h3, if_neg h4, if_neg h5, if_neg h6,
            if_pos (State.alterRefusal_full hlong)]
  · intro i r hready hnumber hnew hadr hcls hkind hzones hplan hboth hf hr hceiling hbusy hclsBusy hkindBusy hpending
      hnewFree hadrFree hin hia
    have ha := alterInRange_of_forall hnumber hnew hadr hcls hkind hzones hplan hboth
    have hc : ceilingFits a r = true := ceilingFits_of_account ha hceiling
    have hn := State.alterRefusal_eq_none hbusy hclsBusy hkindBusy hpending hnewFree hadrFree hin hia
    refine ⟨fun hallow htouch => exec_alter_later hfull
      (takeAlter_waits hready ha hf hr hc hn (Option.isSome_iff_ne_none.mpr hallow) htouch),
      fun s₁ r₁ number address kind hs₁ hr₁ hnum hadd hkd => ?_⟩
    have ht : (if a.newAllowance.isSome then s.touch false i else some s) = some s₁ := by
      cases hall : a.newAllowance <;> simpa [hall, eq_comm] using hs₁
    obtain ⟨hpins, hmsu, hchu, hlines, hdsu, hrla, hrlb, haru, hclu, hstu, -⟩ := maybeTouch_frame ht
    obtain ⟨fnumber, faddress, fcls, fkind, fzones, fpresence, fplan, fallowance, -⟩ := maybeTouch_fields ht hr hr₁
    have halter : r₁.alter a = _ := Record.alter_of_inRange hcls hkind hplan (by rwa [fplan])
    have hnumber' : (r₁.alter a).number = number := by
      rw [halter, hnum, ← fnumber]; cases a.newNumber <;> rfl
    have haddress' : (r₁.alter a).address = address := by
      rw [halter, hadd, ← faddress]; cases a.newAddress <;> rfl
    have hkind' : (r₁.alter a).kind = kind := by
      rw [halter, hkd, ← fkind]; cases a.newKind <;> rfl
    have hfind : s₁.findNumber r₁.number = some i := by
      rw [(maybeTouch_find ht _).1, fnumber, State.number_of_find hf hr, hf]
    have hframe := s₁.alterRecord_frame i r₁ a
    have hu := s₁.alterRecord_stu i r₁ a
    rw [hnumber', haddress', fnumber, faddress] at hu
    have hnumbers : s₁.stu.numberIndex = s.stu.numberIndex ∧ s₁.stu.numberBucket = s.stu.numberBucket := by
      rw [hstu]; exact ⟨rfl, rfl⟩
    have haddresses : s₁.stu.addressIndex = s.stu.addressIndex ∧ s₁.stu.addressBucket = s.stu.addressBucket := by
      rw [hstu]; exact ⟨rfl, rfl⟩
    refine ⟨_, exec_alter_now hfull (takeAlter_made hready ha hf hr hc hn ht hr₁), ?_, ?_, ?_, ?_, ?_, ?_, ?_, ?_, ?_,
      ?_, ?_, ?_, ?_, ?_, ?_, ?_, ?_, ?_⟩
    · refine (congrFun (s₁.record?_alterRecord i r₁ a) i).trans ?_
      rw [Function.update_self, ← hnumber', ← haddress', ← hkind', ← fcls, ← fkind, ← fzones, ← fpresence, ← fplan,
        ← fallowance, halter]
      cases a.newClass <;> cases a.newPlan <;> cases a.newCeiling <;> cases a.newAllowance <;> rfl
    · intro j hj
      exact (congrFun (s₁.record?_alterRecord i r₁ a) j).trans (Function.update_of_ne hj ..)
    · rw [← hnumber']; exact State.findNumber_alterRecord hr₁ hfind
    · intro hfa
      rw [← haddress']
      refine State.findAddress_alterRecord hr₁ ?_
      rw [(maybeTouch_find ht _).2, faddress, hfa]
    · intro b
      refine (congrArg (fun u => chainAt u.numberIndex b) hu).trans ?_
      rw [State.chainAt_moveNumber_of_only (by rwa [hnumbers.1, hnumbers.2]), hnumbers.1, hnumbers.2]
    · intro b
      refine (congrArg (fun u => chainAt u.addressIndex b) hu).trans ?_
      rw [State.chainAt_moveAddress_of_only (by rwa [haddresses.1, haddresses.2]), haddresses.1, haddresses.2]
    · rw [alterReply_alter, State.respond_clu_congr (s := s) (by rw [hframe]; exact hclu)]
      cases a.newAllowance <;> rfl
    · rw [State.respond_stu, hu, hstu]
    · rw [State.respond_stu, hu, hstu]
    all_goals rw [hframe]
    · exact hpins
    · exact hmsu
    · exact hchu
    · exact hlines
    · exact hdsu
    · exact hrla
    · exact hrlb
    · exact haru
    · rfl

end Sys2Proof.Machine
end


section
namespace Sys2Proof.Machine
open Sys2Proof

/-! ## RETIRE -/

/-! ### What a PURGE does to the slots and the owner -/

/-- `t` differs from `s` in no more than the slots, their places, the records and the notices. -/
structure State.SlotsOnly (s t : State) : Prop where
  pins : t.pins = s.pins
  stu : t.stu = { s.stu with records := t.stu.records }
  chu : t.chu = s.chu
  lines : t.lines = s.lines
  rla : t.rla = s.rla
  rlb : t.rlb = s.rlb
  pdu : t.pdu = s.pdu
  responses : t.clu.responses = s.clu.responses
  inProgress : t.clu.inProgress = s.clu.inProgress

namespace State.SlotsOnly
variable {s t u : State}

theorem refl (s : State) : s.SlotsOnly s := ⟨rfl, rfl, rfl, rfl, rfl, rfl, rfl, rfl, rfl⟩

theorem trans (h : s.SlotsOnly t) (k : t.SlotsOnly u) : s.SlotsOnly u :=
  ⟨k.pins.trans h.pins, k.stu.trans (by rw [h.stu]), k.chu.trans h.chu, k.lines.trans h.lines, k.rla.trans h.rla,
    k.rlb.trans h.rlb, k.pdu.trans h.pdu, k.responses.trans h.responses, k.inProgress.trans h.inProgress⟩

theorem settle (s : State) (e : Ending) (n : Nat) : s.SlotsOnly (s.settle e n) := by
  cases hm : s.message? n with
  | none => rw [State.settle_free hm]; exact refl s
  | some m =>
    have hclu : ∀ u : State, u.raiseFree.clu.responses = u.clu.responses ∧
        u.raiseFree.clu.inProgress = u.clu.inProgress := by
      intro u; unfold State.raiseFree; split <;> simp
    refine ⟨by simp, ?_, by simp, by simp, by simp, by simp, by simp, ?_, ?_⟩
    · simp only [State.settle_eq hm, State.freeSlot_eq, State.raiseFree_stu, State.updateRecord, State.putRecord]
      split <;> split <;> simp
    · rw [State.settle_eq hm, State.freeSlot_eq, (hclu _).1]; simp
    · rw [State.settle_eq hm, State.freeSlot_eq, (hclu _).2]; simp

theorem cancelSlot (s : State) (n : Nat) (m : Message) : s.SlotsOnly (s.cancelSlot n m) := by
  unfold State.cancelSlot
  split
  · exact settle s .cancelled n
  · exact ⟨by simp, by simp, by simp, by simp, by simp, by simp, by simp, by simp, by simp⟩
  · exact refl s

end State.SlotsOnly

/-- One slot of a PURGE: cancelled by its state, or nothing where the slot is FREE (R22). -/
theorem State.purge_cons (s : State) (n : Nat) (l : List Nat) :
    s.purge (n :: l) = ((s.message? n).elim s (s.cancelSlot n)).purge l := by
  rw [State.purge, List.foldl_cons]
  cases s.message? n <;> rfl

theorem State.purge_slotsOnly (s : State) (l : List Nat) : s.SlotsOnly (s.purge l) := by
  induction l generalizing s with
  | nil => exact .refl s
  | cons n l ih =>
    rw [State.purge_cons]
    cases s.message? n with
    | none => exact ih s
    | some m => exact (State.SlotsOnly.cancelSlot s n m).trans (ih _)

/-- What a cancellation leaves in its slot: a message being sent with its cancel-pending mark, or nothing (R44). -/
def Message.cancelled (m : Message) : Option Message :=
  if m.place = .sending then some (if m.ackPending then m else { m with cancelPending := true }) else none

theorem Message.disposition_settled {m : Message} : m.disposition = .settled ↔ m.place ≠ .sending := by
  unfold Message.disposition
  split
  next h => simp only [h]; split <;> simp
  next h => simpa using h

/-- A second cancellation finds nothing more to do. -/
theorem Message.cancelled_bind (m : Message) : m.cancelled.bind Message.cancelled = m.cancelled := by
  unfold Message.cancelled
  split_ifs <;> simp_all

section
variable {s : State} {i n : Nat} {m : Message} {r : Record}

theorem State.message?_cancelSlot (hm : s.message? n = some m) :
    (s.cancelSlot n m).message? = Function.update s.message? n m.cancelled := by
  unfold State.cancelSlot Message.cancelled Message.disposition
  cases hp : m.place with
  | sending =>
    cases ha : m.ackPending with
    | true => simp [← hm]
    | false => simp [State.message?_updateMessage_fun hm, hp, ha]
  | _ => simp [State.message?_settle_fun]

/-- Each slot after a PURGE of a list of slots (R22). -/
theorem State.message?_purge (s : State) (l : List Nat) (k : Nat) :
    (s.purge l).message? k = if k ∈ l then (s.message? k).bind Message.cancelled else s.message? k := by
  induction l generalizing s with
  | nil => simp [State.purge]
  | cons n l ih =>
    rw [State.purge_cons, ih]
    cases hm : s.message? n with
    | none => by_cases hk : k = n <;> simp [hk, hm]
    | some m =>
      simp only [Option.elim_some, State.message?_cancelSlot hm]
      by_cases hk : k = n
      · subst hk; simp [hm, Message.cancelled_bind]
      · simp [hk]

/-- The slot leaves its place in a cancellation. -/
def Message.leaves (m : Message) : Bool := decide (m.place ≠ .sending)

/-- The owner after the settlement of the slots of a list, in its order (R22, R41). -/
def Record.purged (r : Record) (message : Nat → Option Message) (period : Nat) (l : List Nat) : Record :=
  l.foldl (fun x n => (message n).elim x fun m => x.settled .cancelled n m period) r

theorem State.cancelSlot_settles (h : m.leaves = true) : s.cancelSlot n m = s.settle .cancelled n := by
  have hd : m.disposition = .settled := Message.disposition_settled.mpr (by simpa [Message.leaves] using h)
  simp [State.cancelSlot, hd]

/-- A cancellation that settles nothing leaves the table and the free count. -/
theorem State.cancelSlot_marks (h : m.leaves = false) :
    (s.cancelSlot n m).record? = s.record? ∧ (s.cancelSlot n m).msu.freeCount = s.msu.freeCount := by
  have hd : m.disposition ≠ .settled := fun hd => by
    simpa [Message.leaves] using (Message.disposition_settled.mp hd) (by simpa [Message.leaves] using h)
  unfold State.cancelSlot
  split
  next hs => exact absurd hs hd
  next => exact ⟨State.record?_eq (by simp), by simp⟩
  next => exact ⟨rfl, rfl⟩

/-- The record and the free count after a PURGE of slots of one owner: each slot that is not being sent is settled, and
no other record is reached (R22). -/
theorem State.record?_purge {message : Nat → Option Message} {l : List Nat} (hsame : ∀ n ∈ l, s.message? n = message n)
    (howned : ∀ n ∈ l, ∃ m, message n = some m ∧ m.owner = i) (hnd : l.Nodup) (hr : s.record? i = some r) :
    (s.purge l).record? = Function.update s.record? i
        (some (r.purged message s.pdu.period (l.filter fun n => (message n).any Message.leaves))) ∧
      (s.purge l).msu.freeCount = s.msu.freeCount + (l.filter fun n => (message n).any Message.leaves).length := by
  induction l generalizing s r with
  | nil => simp [State.purge, Record.purged, ← hr]
  | cons n l ih =>
    obtain ⟨m, hmessage, hown⟩ := howned n (by simp)
    have hm : s.message? n = some m := (hsame n (by simp)).trans hmessage
    obtain ⟨hn, hnd⟩ := List.nodup_cons.mp hnd
    have hrest : ∀ k ∈ l, (s.cancelSlot n m).message? k = message k := fun k hk => by
      rw [State.message?_cancelSlot hm, Function.update_of_ne (ne_of_mem_of_not_mem hk hn)]
      exact hsame k (by simp [hk])
    have hperiod : (s.cancelSlot n m).pdu.period = s.pdu.period := by rw [(State.SlotsOnly.cancelSlot s n m).pdu]
    rw [State.purge_cons, hm, Option.elim_some, List.filter_cons, hmessage, Option.any_some]
    cases hleaves : m.leaves with
    | true =>
      have hrec : (s.cancelSlot n m).record? = Function.update s.record? i
          (some (r.settled .cancelled n m s.pdu.period)) := by
        rw [State.cancelSlot_settles hleaves, State.record?_settle_fun hm (by rwa [hown]), hown]
      have hcount : (s.cancelSlot n m).msu.freeCount = s.msu.freeCount + 1 := by
        rw [State.cancelSlot_settles hleaves, (State.settle_free_list hm).2.1]
      obtain ⟨h1, h2⟩ := ih hrest (fun k hk => howned k (by simp [hk])) hnd (by rw [hrec, Function.update_self])
      rw [h1, h2, hrec, hcount, hperiod, Function.update_idem]
      simp [Record.purged, hmessage]; omega
    | false =>
      obtain ⟨hrec, hcount⟩ := State.cancelSlot_marks (s := s) (n := n) hleaves
      obtain ⟨h1, h2⟩ := ih hrest (fun k hk => howned k (by simp [hk])) hnd (by rw [hrec, hr])
      rw [h1, h2, hrec, hcount, hperiod]
      simp

/-! ### What a settled record keeps -/

theorem Record.purged_fields (r : Record) (message : Nat → Option Message) (period : Nat) (l : List Nat) :
    (r.purged message period l).state = r.state ∧ (r.purged message period l).number = r.number ∧
      (r.purged message period l).address = r.address ∧ (r.purged message period l).periodTag = r.periodTag := by
  unfold Record.purged
  induction l generalizing r with
  | nil => simp
  | cons n l ih =>
    rw [List.foldl_cons]
    obtain ⟨h1, h2, h3, h4⟩ := ih ((message n).elim r fun m => r.settled .cancelled n m period)
    rw [h1, h2, h3, h4]
    cases message n with
    | none => simp
    | some m => simp [Record.settled, Record.settle_number, Record.settle_address]

/-- The live list after the settlement of the slots of a list. -/
theorem Record.purged_live {message : Nat → Option Message} {l : List Nat} (h : ∀ n ∈ l, (message n).isSome = true)
    (r : Record) (period : Nat) : (r.purged message period l).live = r.live.diff l := by
  unfold Record.purged
  induction l generalizing r with
  | nil => simp
  | cons n l ih =>
    obtain ⟨m, hm⟩ := Option.isSome_iff_exists.mp (h n (by simp))
    rw [List.foldl_cons, ih (fun k hk => h k (by simp [hk])), hm, List.diff_cons]
    simp [Record.settled]

end

end Sys2Proof.Machine
end


section
namespace Sys2Proof.Machine
open Sys2Proof

/-! ### The freeing that a RETIRE begins -/

/-- `t` is `s` with the record `r` freed: its closing entry written, the record off the table and the address index, its
index on the free list, and RECORD FREED raised (R24). -/
structure State.Freed (s t : State) (i : Nat) (r : Record) : Prop where
  record : t.record? = Function.update s.record? i none
  numbers : t.stu.numberIndex = s.stu.numberIndex
  addresses : chainAt t.stu.addressIndex = Function.update (chainAt s.stu.addressIndex) (s.stu.addressBucket r.address)
    ((chainAt s.stu.addressIndex (s.stu.addressBucket r.address)).erase i)
  free : t.stu.free = s.stu.free.push i
  freeCount : t.stu.freeCount = s.stu.freeCount + 1
  pdu : t.pdu = { s.pdu with extract := s.pdu.extract ++ [r.entry i true] }
  notices : s.clu.notices.length < 32 → t.clu.notices = s.clu.notices ++ [⟨.recordFreed i r.number, s.pdu.tick⟩]
  responses : t.clu.responses = s.clu.responses
  pins : t.pins = s.pins
  msu : t.msu = s.msu
  chu : t.chu = s.chu
  lines : t.lines = s.lines
  dsu : t.dsu = s.dsu
  rla : t.rla = s.rla
  rlb : t.rlb = s.rlb
  aru : t.aru = s.aru

section
variable {s t : State} {i place : Nat} {r : Record} {params : List Byte}

theorem State.raise_notices {k : NoticeKind} (h : s.clu.notices.length < 32) :
    (s.raise k).clu.notices = s.clu.notices ++ [⟨k, s.pdu.tick⟩] := by
  simp [State.raise, Config.noticeQueue, h]

/-- The freeing of a record that is due, for a command that is answered at once (R24). -/
theorem State.freeOwner_freed (hr : s.record? i = some r) (hstate : r.state = .retiring) (hlive : r.live = [])
    (hneeds : s.needsTouch r = false) (hwaiters : s.pdu.waiters = []) (hextract : s.pdu.extract.length < 64) :
    ∃ t, s.freeOwner false i (.answer place params) = (t, false) ∧ s.Freed t i r := by
  have hput := State.updateRecord_eq hr fun r => { r with closing := true }
  have hr' : (s.putRecord i { r with closing := true }).record? i = some { r with closing := true } := by simp
  have hdue : s.freeingDue i = true := (State.freeingDue_iff hr).mpr ⟨hstate, hlive⟩
  have hneeds' : (s.putRecord i { r with closing := true }).needsTouch { r with closing := true } = false := hneeds
  have hroom : (s.putRecord i { r with closing := true }).hasRoom false 1 = true := by
    simp [State.hasRoom, hwaiters, Config.extractFifo]; omega
  refine ⟨((s.putRecord i { r with closing := true }).writeEntry
    (({ r with closing := true } : Record).entry i true)).releaseRecord i { r with closing := true }, ?_, ?_⟩
  · simp [State.freeOwner, hdue, State.beginFreeing, hput, State.writeClosing, hr', hneeds', hroom, State.countFreed]
  · have hentry : ((s.putRecord i { r with closing := true }).writeEntry
        (({ r with closing := true } : Record).entry i true)) =
        { s.putRecord i { r with closing := true } with
          pdu := { s.pdu with extract := s.pdu.extract ++ [r.entry i true] } } := by
      simp [State.writeEntry, Config.extractFifo, hextract]; rfl
    rw [hentry]
    constructor
    case record =>
      funext j
      by_cases hj : j = i
      · subst hj; simp
      · rw [Function.update_of_ne hj, State.record?_releaseRecord_other _ _ hj]
        exact State.record?_putRecord_other s _ hj
    case addresses =>
      rw [State.releaseRecord, State.raise_stu]
      exact chainAt_putChain_fun ..
    case notices =>
      intro h
      refine (State.raise_notices ?_).trans rfl
      exact h
    case responses => rw [State.releaseRecord, State.raise_responses]; rfl
    case numbers | free | freeCount => rw [State.releaseRecord, State.raise_stu]; rfl
    all_goals simp [State.putRecord]

/-- A freeing that is due and finds no room waits with its closing-pending mark (R24, R166). -/
theorem State.freeOwner_waits {holder : Holder} (hr : s.record? i = some r) (hstate : r.state = .retiring)
    (hlive : r.live = []) (hneeds : s.needsTouch r = false)
    (hroom : s.pdu.waiters ≠ [] ∨ 64 ≤ s.pdu.extract.length) :
    s.freeOwner false i holder =
      ((s.putRecord i { r with closing := true }).wait false (.closing i holder), true) := by
  rw [State.freeOwner_wait holder hr hstate hlive hneeds, State.updateRecord_eq hr]
  simp only [State.hasRoom, Bool.false_or, Bool.and_eq_false_iff, Config.extractFifo]
  rcases hroom with h | h
  · exact .inl (by simpa using h)
  · exact .inr (decide_eq_false (by omega))

/-! ### What a RETIRE answers -/

theorem State.record?_retireRecord (hr : s.record? i = some r) (r₀ : Record) :
    (s.retireRecord i r₀).record? = Function.update s.record? i (some { r with state := .retiring }) := by
  have hr' : (s.unlinkNumber r₀.number i).record? i = some r := hr
  rw [State.retireRecord, State.updateRecord_eq hr', State.record?_putRecord_fun]
  rfl

/-- A RETIRE takes the record off its number chain, and writes nothing else of the table but the record (R20). -/
theorem State.retireRecord_eq (hr : s.record? i = some r) (r₀ : Record) :
    s.retireRecord i r₀ = { s with stu := { s.stu with
      numberIndex := (s.unlinkNumber r₀.number i).stu.numberIndex
      records := s.stu.records.put i { r with state := .retiring } } } := by
  have hr' : (s.unlinkNumber r₀.number i).record? i = some r := hr
  rw [State.retireRecord, State.updateRecord_eq hr']
  rfl

/-- The record off its number chain and RETIRING, and its slots cancelled by a PURGE (R20, R22). -/
def State.retired (s : State) (purge : Bool) (i : Nat) (r : Record) : State :=
  if purge then (s.retireRecord i r).purge r.live else s.retireRecord i r

variable {number : BitVec 24} {mode : Byte} {purge : Bool} {settled : Nat}

theorem takeRetire_not_ready (h : s.stu.state ≠ .ready) :
    takeRetire false place number mode s = (s, .now .tableNotReady []) := by
  simp [takeRetire, State.ready_eq_false h]

theorem takeRetire_bad_mode (h : s.stu.state = .ready) (hm : purgeOf mode = none) :
    takeRetire false place number mode s = (s, .now .badField []) := by
  simp [takeRetire, State.ready_eq_true h, hm]

theorem takeRetire_unknown (h : s.stu.state = .ready) (hm : purgeOf mode = some purge)
    (hf : s.findNumber number.toNat = none) :
    takeRetire false place number mode s = (s, .now .unknownSubscriber []) := by
  simp [takeRetire, State.ready_eq_true h, hm, hf]

/-- A RETIRE that passes its checks waits where the touch-sweep it needs cannot be made (R23). -/
theorem takeRetire_waits (h : s.stu.state = .ready) (hm : purgeOf mode = some purge)
    (hf : s.findNumber number.toNat = some i) (hr : s.record? i = some r) (hreaches : s.retireReaches purge r = true)
    (ht : s.touch false i = none) :
    takeRetire false place number mode s = (s.wait false (.command place (.retire number mode)), .later) := by
  simp [takeRetire, State.ready_eq_true h, hm, hf, hr, hreaches, ht]

section
variable {s₁ : State} (h : s.stu.state = .ready) (hm : purgeOf mode = some purge)
  (hf : s.findNumber number.toNat = some i) (hr : s.record? i = some r)
  (ht : (if s.retireReaches purge r then s.touch false i else some s) = some s₁)
  (hcount : (if purge then (s.purgeable r).length else 0) = settled)
include h hm hf hr ht hcount

/-- The record keeps a live slot, and stays RETIRING (R20). -/
theorem takeRetire_drains (hdue : (s₁.retired purge i r).freeingDue i = false) :
    takeRetire false place number mode s =
      (s₁.retired purge i r, .now .ok (retireReply i settled false)) := by
  unfold State.retired at hdue ⊢
  simp [takeRetire, State.ready_eq_true h, hm, hf, hr, ht, hcount, hdue]

/-- The record is freed at once (R24). -/
theorem takeRetire_frees (hdue : (s₁.retired purge i r).freeingDue i = true)
    (hfree : (s₁.retired purge i r).freeOwner false i (.answer place (retireReply i settled true)) = (t, false)) :
    takeRetire false place number mode s = (t, .now .ok (retireReply i settled true)) := by
  rw [State.freeOwner, if_pos hdue] at hfree
  unfold State.retired at hdue hfree
  simp [takeRetire, State.ready_eq_true h, hm, hf, hr, ht, hcount, hdue, hfree]

/-- The closing entry of the record waits (R24, R164). -/
theorem takeRetire_waits_closing (hdue : (s₁.retired purge i r).freeingDue i = true)
    (hfree : (s₁.retired purge i r).freeOwner false i (.answer place (retireReply i settled true)) = (t, true)) :
    takeRetire false place number mode s = (t, .later) := by
  rw [State.freeOwner, if_pos hdue] at hfree
  unfold State.retired at hdue hfree
  simp [takeRetire, State.ready_eq_true h, hm, hf, hr, ht, hcount, hdue, hfree]

end

/-! ### The row RETIRE -/

variable {tag : Byte} {why : Result}

theorem exec_retire_now (hfull : s.responseFull = false)
    (ht : takeRetire false s.freshPlace number mode s = (t, .now why params)) :
    exec (.retire tag number mode) s = .next (t.respond ⟨0x15, tag, why, params⟩).afterTraffic := by
  refine congrArg Host.Outcome.next ?_
  rw [startRetire, State.startTraffic, hfull, State.start_now hfull ht]
  rfl

theorem exec_retire_later (hfull : s.responseFull = false)
    (ht : takeRetire false s.freshPlace number mode s = (t, .later)) :
    exec (.retire tag number mode) s = .next (State.afterTraffic { t with clu := { t.clu with
      inProgress := t.clu.inProgress ++ [⟨s.freshPlace, 0x15, tag⟩] } }) := by
  refine congrArg Host.Outcome.next ?_
  rw [startRetire, State.startTraffic, hfull, State.start_later hfull ht]
  rfl

end

end Sys2Proof.Machine
end


section
namespace Sys2Proof.Machine
open Sys2Proof

/-! ### The RETIRE obligation -/

theorem purgeOf_eq {mode : Byte} (h : mode.toNat ≤ 1) : purgeOf mode = some (mode == 1) := by
  have h0 := byte_eq_iff (c := mode) (n := 0) (by decide)
  have h1 := byte_eq_iff (c := mode) (n := 1) (by decide)
  rcases Nat.le_one_iff_eq_zero_or_eq_one.mp h with he | he
  · rw [h0.mpr he]; rfl
  · rw [h1.mpr he]; rfl

theorem purgeOf_eq_none {mode : Byte} (h : 1 < mode.toNat) : purgeOf mode = none := by
  unfold purgeOf
  rw [if_neg, if_neg]
  · intro he; simp [he] at h
  · intro he; simp [he] at h

section
variable {s s₁ t u w : State} {i : Nat} {r r₁ : Record}

/-- The slots that a PURGE settles are those that are not being sent (R22). -/
theorem State.purgeable_eq (s : State) (r : Record) :
    s.purgeable r = r.live.filter fun n => (s.message? n).any Message.leaves := by
  unfold State.purgeable
  congr 1
  funext n
  cases s.message? n with
  | none => rfl
  | some m => rw [Option.any_some, Option.any_some, Bool.eq_iff_iff, beq_iff_eq, Message.disposition_settled,
      Message.leaves, decide_eq_true_iff]

/-- A table that differs in its records alone. -/
theorem Stu.of_records {a b : Stu} {rs : Sparse Record} (h : a = { b with records := rs }) :
    a.numberIndex = b.numberIndex ∧ a.addressIndex = b.addressIndex ∧ a.free = b.free ∧ a.freeCount = b.freeCount ∧
      a.numberBucket = b.numberBucket ∧ a.addressBucket = b.addressBucket := by
  subst h
  exact ⟨rfl, rfl, rfl, rfl, rfl, rfl⟩

/-- Taking some of a list's members out leaves nothing exactly where they are all of them. -/
theorem diff_filter_eq_nil_iff {l : List Nat} (hnd : l.Nodup) (p : Nat → Bool) :
    l.diff (l.filter p) = [] ↔ l.filter p = l := by
  rw [hnd.sdiff_eq_filter, List.filter_eq_nil_iff, List.filter_eq_self]
  refine forall₂_congr fun n hn => ?_
  simp [hn]

/-- A chain of the number index once a record has left the chain of its number. -/
theorem State.chainAt_unlinkNumber_apply (hstu : t.stu = { s.stu with records := t.stu.records }) (n i b : Nat) :
    chainAt (t.unlinkNumber n i).stu.numberIndex b =
      if b = s.stu.numberBucket n then (chainAt s.stu.numberIndex b).erase i else chainAt s.stu.numberIndex b := by
  obtain ⟨hindex, -, -, -, hbucket, -⟩ := Stu.of_records hstu
  rw [State.chainAt_unlinkNumber, hindex, hbucket, Function.update_apply]
  split
  next hb => rw [hb]
  next => rfl

/-- The state that a RETIRE reaches before the freeing: only the records, the number index, the slots and their places
and the notices are not as the touch-sweep left them. -/
structure State.Retired (s s₁ w : State) (i : Nat) (r r' : Record) : Prop where
  record : w.record? = Function.update s₁.record? i (some r')
  numbers : ∀ b, chainAt w.stu.numberIndex b =
    if b = s.stu.numberBucket r.number then (chainAt s.stu.numberIndex b).erase i else chainAt s.stu.numberIndex b
  addresses : w.stu.addressIndex = s.stu.addressIndex
  addressBucket : w.stu.addressBucket = s.stu.addressBucket
  free : w.stu.free = s.stu.free
  freeCount : w.stu.freeCount = s.stu.freeCount
  pdu : w.pdu = s₁.pdu
  responses : w.clu.responses = s.clu.responses
  inProgress : w.clu.inProgress = s.clu.inProgress
  pins : w.pins = s.pins
  chu : w.chu = s.chu
  lines : w.lines = s.lines
  rla : w.rla = s.rla
  rlb : w.rlb = s.rlb

theorem State.retireRecord_retired {b : Bool} (ht : (if b then s.touch false i else some s) = some t)
    (hr : t.record? i = some r₁) : s.Retired t (t.retireRecord i r) i r { r₁ with state := .retiring } := by
  obtain ⟨hpins, hmsu, hchu, hlines, hdsu, hrla, hrlb, haru, hclu, hstu, -⟩ := maybeTouch_frame ht
  refine ⟨State.record?_retireRecord hr r, fun b => ?_, ?_, ?_, ?_, ?_, ?_, ?_, ?_, ?_, ?_, ?_, ?_, ?_⟩ <;>
    rw [State.retireRecord_eq hr]
  · exact State.chainAt_unlinkNumber_apply hstu ..
  · dsimp only; rw [hstu]
  · dsimp only; rw [hstu]; rfl
  · dsimp only; rw [hstu]
  · dsimp only; rw [hstu]
  · exact congrArg (·.responses) hclu
  · exact congrArg (·.inProgress) hclu
  all_goals assumption

theorem maybeTouch_of_cases {b : Bool} (h : if b then s.touch false i = some t else t = s) :
    (if b then s.touch false i else some s) = some t := by
  cases b with
  | false => exact congrArg some h.symm
  | true => exact h

/-- The store, the dispatch queues and the command link are as before the RETIRE (R20). -/
theorem State.retireRecord_frame {b : Bool} (r : Record) (ht : (if b then s.touch false i else some s) = some t)
    (hr₁ : t.record? i = some r₁) :
    (t.retireRecord i r).msu = s.msu ∧ (t.retireRecord i r).dsu = s.dsu ∧ (t.retireRecord i r).aru = s.aru ∧
      (t.retireRecord i r).clu = s.clu ∧ (t.retireRecord i r).pdu.period = s.pdu.period := by
  obtain ⟨-, hmsu, -, -, hdsu, -, -, haru, hclu, -, hperiod, -⟩ := maybeTouch_frame ht
  rw [State.retireRecord_eq hr₁]
  exact ⟨hmsu, hdsu, haru, hclu, hperiod⟩

/-- A PURGE after the record is RETIRING. -/
theorem State.Retired.purge {r' : Record} (h : s.Retired s₁ w i r r') (l : List Nat) {r'' : Record}
    (hrec : (w.purge l).record? = Function.update w.record? i (some r'')) :
    s.Retired s₁ (w.purge l) i r r'' := by
  have hp := w.purge_slotsOnly l
  obtain ⟨hnumbers, haddresses, hfree, hcount, -, hbucket⟩ := Stu.of_records hp.stu
  exact
    { record := by rw [hrec, h.record, Function.update_idem]
      numbers := by rw [hnumbers]; exact h.numbers
      addresses := haddresses.trans h.addresses
      addressBucket := hbucket.trans h.addressBucket
      free := hfree.trans h.free
      freeCount := hcount.trans h.freeCount
      pdu := hp.pdu.trans h.pdu
      responses := hp.responses.trans h.responses
      inProgress := hp.inProgress.trans h.inProgress
      pins := hp.pins.trans h.pins
      chu := hp.chu.trans h.chu
      lines := hp.lines.trans h.lines
      rla := hp.rla.trans h.rla
      rlb := hp.rlb.trans h.rlb }

/-- The chains of the address index once the record of a RETIRE is freed. -/
theorem State.Retired.address_chains {r' : Record} (h : s.Retired s₁ w i r r') (hF : w.Freed t i r')
    (hadr : r'.address = r.address) (b : Nat) : chainAt t.stu.addressIndex b =
      if b = s.stu.addressBucket r.address then (chainAt s.stu.addressIndex b).erase i
      else chainAt s.stu.addressIndex b := by
  rw [hF.addresses, h.addresses, h.addressBucket, hadr, Function.update_apply]
  split
  next hb => rw [hb]
  next => rfl

/-- No touch-sweep is due of the retired record: the one it needed is made (R23). -/
theorem State.Retired.needsTouch {r' : Record} (h : s.Retired s₁ w i r r') (ht : s.touch false i = some s₁)
    (hr₁ : s₁.record? i = some r₁) (htag : r'.periodTag = r₁.periodTag) : w.needsTouch r' = false := by
  have hn := State.touch_needs ht hr₁
  simpa only [State.needsTouch, State.sweepInProgress, h.pdu, htag] using hn

/-- The freeing is due where the live list is empty (R20, R24). -/
theorem State.Retired.freeingDue {r' : Record} (h : s.Retired s₁ w i r r') (hstate : r'.state = .retiring) :
    w.freeingDue i = r'.live.isEmpty := by
  simp [State.freeingDue, h.record, hstate]

/-- The table once the record of a RETIRE is freed. -/
theorem State.Retired.freed {r' : Record} (h : s.Retired s₁ w i r r') (hF : w.Freed t i r')
    (hadr : r'.address = r.address) :
    t.record? i = none ∧ (∀ j, j ≠ i → t.record? j = s₁.record? j) ∧
      (∀ b, chainAt t.stu.numberIndex b =
        if b = s.stu.numberBucket r.number then (chainAt s.stu.numberIndex b).erase i
        else chainAt s.stu.numberIndex b) ∧
      (∀ b, chainAt t.stu.addressIndex b =
        if b = s.stu.addressBucket r.address then (chainAt s.stu.addressIndex b).erase i
        else chainAt s.stu.addressIndex b) := by
  refine ⟨?_, fun j hj => ?_, fun b => ?_, h.address_chains hF hadr⟩
  · rw [hF.record, Function.update_self]
  · rw [hF.record, Function.update_of_ne hj, h.record, Function.update_of_ne hj]
  · rw [hF.numbers]; exact h.numbers b

/-- The records once the closing entry of a RETIRE waits. -/
theorem State.Retired.marked {r' : Record} (h : s.Retired s₁ w i r r') :
    (w.putRecord i { r' with closing := true }).record? i = some { r' with closing := true } ∧
      ∀ j, j ≠ i → (w.putRecord i { r' with closing := true }).record? j = s₁.record? j := by
  refine ⟨State.record?_putRecord_same .., fun j hj => ?_⟩
  rw [State.record?_putRecord_other _ _ hj, h.record, Function.update_of_ne hj]

/-- A PURGE settles the slots of the record that are not being sent, in live-list order (R22). -/
theorem State.purge_retired {b : Bool} (ht : (if b then s.touch false i else some s) = some t)
    (hr₁ : t.record? i = some r₁) (hnd : r.live.Nodup)
    (howned : ∀ n ∈ r.live, ∃ m, s.message? n = some m ∧ m.owner = i) :
    s.Retired t (t.retired true i r) i r
        (({ r₁ with state := .retiring } : Record).purged s.message? s.pdu.period (s.purgeable r)) ∧
      (t.retired true i r).msu.freeCount = s.msu.freeCount + (s.purgeable r).length := by
  have hw := State.retireRecord_retired (r := r) ht hr₁
  obtain ⟨hmsu, -, -, -, hperiod⟩ := State.retireRecord_frame r ht hr₁
  have hmsg : (t.retireRecord i r).message? = s.message? := State.message?_eq (by rw [hmsu])
  obtain ⟨hrec, hcount⟩ := State.record?_purge (message := s.message?) (fun n _ => congrFun hmsg n) howned hnd
    (r := { r₁ with state := .retiring }) (by rw [hw.record, Function.update_self])
  rw [hperiod, ← State.purgeable_eq] at hrec
  rw [hmsu, ← State.purgeable_eq] at hcount
  exact ⟨hw.purge r.live hrec, hcount⟩

section
variable {number : BitVec 24} {mode : Byte} {purge : Bool} {tag : Byte} {settled : Nat} {r' : Record}
  (hfull : s.responseFull = false) (h : s.stu.state = .ready) (hm : purgeOf mode = some purge)
  (hf : s.findNumber number.toNat = some i) (hr : s.record? i = some r)
  (ht : (if s.retireReaches purge r then s.touch false i else some s) = some s₁)
include hfull h hm hf hr ht

/-- A RETIRE that is made, whatever becomes of the freeing: its freeing reaches no slot and no other unit (R24). -/
theorem exec_retire_made :
    ∃ u : State, exec (.retire tag number mode) s = .next u.afterTraffic ∧
      u.msu.slots = (s₁.retired purge i r).msu.slots ∧ u.pins = (s₁.retired purge i r).pins ∧
      u.chu = (s₁.retired purge i r).chu ∧ u.lines = (s₁.retired purge i r).lines ∧
      u.rla = (s₁.retired purge i r).rla ∧ u.rlb = (s₁.retired purge i r).rlb := by
  cases hdue : (s₁.retired purge i r).freeingDue i with
  | false =>
    exact ⟨_, exec_retire_now hfull (takeRetire_drains h hm hf hr ht rfl hdue), rfl, rfl, rfl, rfl, rfl, rfl⟩
  | true =>
    obtain ⟨hslots, -, -, hpins, hchu, hlines, -, hrla, hrlb, -⟩ := (s₁.retired purge i r).freeOwner_frame false i
      (.answer s.freshPlace (retireReply i (if purge then (s.purgeable r).length else 0) true))
    obtain ⟨t, waits, hfree⟩ : ∃ t waits, (s₁.retired purge i r).freeOwner false i
        (.answer s.freshPlace (retireReply i (if purge then (s.purgeable r).length else 0) true)) = (t, waits) :=
      ⟨_, _, rfl⟩
    rw [hfree] at hslots hpins hchu hlines hrla hrlb
    cases waits with
    | false =>
      exact ⟨_, exec_retire_now hfull (takeRetire_frees h hm hf hr ht rfl hdue hfree), hslots, hpins, hchu, hlines,
        hrla, hrlb⟩
    | true =>
      exact ⟨_, exec_retire_later hfull (takeRetire_waits_closing h hm hf hr ht rfl hdue hfree), hslots, hpins, hchu,
        hlines, hrla, hrlb⟩

variable (hcount : (if purge then (s.purgeable r).length else 0) = settled) (hret : s₁.retired purge i r = w)
  (hw : s.Retired s₁ w i r r') (hstate : r'.state = .retiring)
include hcount hret hw hstate

/-- The record keeps a live slot, and the RETIRE is answered (R20). -/
theorem exec_retire_drained (hlive : r'.live ≠ []) : exec (.retire tag number mode) s =
    .next (w.respond ⟨0x15, tag, .ok, retireReply i settled false⟩).afterTraffic := by
  subst hret
  refine exec_retire_now hfull (takeRetire_drains h hm hf hr ht hcount ?_)
  rw [hw.freeingDue hstate]
  simpa using hlive

/-- The record is freed at once, and the RETIRE is answered (R24). -/
theorem exec_retire_freed (htouch : s.touch false i = some s₁) (hr₁ : s₁.record? i = some r₁)
    (htag : r'.periodTag = r₁.periodTag) (hempty : r'.live = []) (hwaiters : s₁.pdu.waiters = [])
    (hextract : s₁.pdu.extract.length < 64) :
    ∃ t, exec (.retire tag number mode) s =
      .next (t.respond ⟨0x15, tag, .ok, retireReply i settled true⟩).afterTraffic ∧ w.Freed t i r' := by
  subst hret
  have hdue : (s₁.retired purge i r).freeingDue i = true := by rw [hw.freeingDue hstate, hempty]; rfl
  obtain ⟨t, hfree, hF⟩ := State.freeOwner_freed (place := s.freshPlace) (params := retireReply i settled true)
    (by rw [hw.record, Function.update_self]) hstate hempty (hw.needsTouch htouch hr₁ htag)
    (by rw [hw.pdu]; exact hwaiters) (by rw [hw.pdu]; exact hextract)
  exact ⟨t, exec_retire_now hfull (takeRetire_frees h hm hf hr ht hcount hdue hfree), hF⟩

/-- The closing entry of the record waits, and the RETIRE with it (R24, R164). -/
theorem exec_retire_waits (htouch : s.touch false i = some s₁) (hr₁ : s₁.record? i = some r₁)
    (htag : r'.periodTag = r₁.periodTag) (hempty : r'.live = [])
    (hroom : s₁.pdu.waiters ≠ [] ∨ 64 ≤ s₁.pdu.extract.length) : exec (.retire tag number mode) s =
    .next (State.afterTraffic { w.putRecord i { r' with closing := true } with
      pdu := { w.pdu with
        waiters := w.pdu.waiters ++ [.closing i (.answer s.freshPlace (retireReply i settled true))] }
      clu := { w.clu with inProgress := w.clu.inProgress ++ [⟨s.freshPlace, 0x15, tag⟩] } }) := by
  subst hret
  have hdue : (s₁.retired purge i r).freeingDue i = true := by rw [hw.freeingDue hstate, hempty]; rfl
  have hfree := State.freeOwner_waits (holder := .answer s.freshPlace (retireReply i settled true))
    (by rw [hw.record, Function.update_self]) hstate hempty (hw.needsTouch htouch hr₁ htag) (by rwa [hw.pdu])
  rw [exec_retire_later hfull (takeRetire_waits_closing h hm hf hr ht hcount hdue hfree)]
  rfl

end

end

/-- Settles O25: the RETIRE is followed up to its freeing (`State.Retired`, with `State.purge_retired` for the slots of
a PURGE), and from there the record is kept, freed (`State.Freed`), or waits for its closing entry. -/
theorem retireDrainsOrFrees : Obligations.RetireDrainsOrFrees := by
  intro tag number mode s hfull
  refine ⟨fun h => ?_, fun h hm => ?_, fun h hm hf => ?_, fun i r h hf hr => ⟨?_, ?_, ?_, ?_, ?_⟩⟩
  · exact exec_retire_now hfull (takeRetire_not_ready h)
  · exact exec_retire_now hfull (takeRetire_bad_mode h (purgeOf_eq_none hm))
  · exact exec_retire_now hfull (takeRetire_unknown h (purgeOf_eq hm) hf)
  · intro hm hlive
    have hpurge : purgeOf mode = some false := by rw [hm]; rfl
    have ht : (if s.retireReaches false r then s.touch false i else some s) = some s := by
      simp [State.retireReaches, hlive]
    have hw := State.retireRecord_retired (r := r) ht hr
    obtain ⟨hmsu, hdsu, haru, hclu, -⟩ := State.retireRecord_frame r ht hr
    refine ⟨_, exec_retire_drained hfull h hpurge hf hr ht rfl rfl hw rfl hlive, ?_, ?_, ?_, ?_, hw.numbers, ?_⟩
    · exact (congrFun hw.record i).trans (Function.update_self ..)
    · exact fun j hj => (congrFun hw.record j).trans (Function.update_of_ne hj ..)
    · exact State.respond_clu_congr hclu _
    · exact hw.addresses
    · exact ⟨hw.free, hmsu, hdsu, haru, hw.pdu, hw.lines⟩
  · intro hm hreaches ht
    rw [exec_retire_later hfull (takeRetire_waits h (purgeOf_eq hm) hf hr hreaches ht)]
    rfl
  · intro s₁ r₁ hm hlive ht hr₁
    have ht' : (if s.retireReaches (mode == 1) r then s.touch false i else some s) = some s₁ := by
      simpa [State.retireReaches, hlive] using ht
    obtain ⟨-, hadr, -, -, -, -, -, -, hlive₁⟩ := maybeTouch_fields ht' hr hr₁
    rw [hlive] at hlive₁
    obtain ⟨-, -, -, -, -, -, -, -, hclu₁, -, -, htick⟩ := maybeTouch_frame ht'
    have hcount : (if mode == 1 then (s.purgeable r).length else 0) = 0 := by simp [State.purgeable, hlive]
    have hret : s₁.retired (mode == 1) i r = s₁.retireRecord i r := by
      unfold State.retired; rw [hlive]; split <;> rfl
    obtain ⟨hmsu, hdsu, haru, hclu, -⟩ := State.retireRecord_frame r ht' hr₁
    have hw := State.retireRecord_retired (r := r) ht' hr₁
    generalize s₁.retireRecord i r = w at hret hw hmsu hdsu haru hclu
    constructor
    · intro hwaiters hextract hnotices
      obtain ⟨t, hexec, hF⟩ := exec_retire_freed (tag := tag) hfull h (purgeOf_eq hm) hf hr ht' hcount hret hw rfl ht
        hr₁ rfl hlive₁ hwaiters hextract
      obtain ⟨hgone, hothers, hnumbers, haddresses⟩ := hw.freed hF hadr
      refine ⟨_, hexec, hgone, hothers, hnumbers, haddresses, ?_, ?_, ?_, ?_, ?_, hF.msu.trans hmsu, hF.dsu.trans hdsu,
        hF.aru.trans haru, hF.lines.trans hw.lines, ?_⟩
      · rw [State.respond_stu, hF.free, hw.free]; rfl
      · rw [State.respond_stu, hF.freeCount, hw.freeCount]
      · rw [State.respond_pdu, hF.pdu, hw.pdu]; rfl
      · rw [State.respond_notices, hF.notices (by rw [hclu, ← hclu₁]; exact hnotices), hw.pdu, htick, hclu]
      · rw [State.respond_responses, hF.responses, hw.responses]; rfl
      · rw [State.respond_pdu, hF.pdu, hw.pdu]
    · intro hroom
      obtain ⟨hmarked, hothers⟩ := hw.marked
      refine ⟨_, exec_retire_waits hfull h (purgeOf_eq hm) hf hr ht' hcount hret hw rfl ht hr₁ rfl hlive₁ hroom,
        hmarked, hothers, hw.addresses, hw.numbers, ?_, ?_, hmsu, hdsu, haru, hw.lines⟩
      · rw [← hw.pdu]; rfl
      · rw [← hclu]
  · intro s₁ hm hlive ht
    have ht' := maybeTouch_of_cases ht
    obtain ⟨r₁, hr₁⟩ := maybeTouch_record ht' hr
    have hw := State.retireRecord_retired (r := r) ht' hr₁
    obtain ⟨hmsu, -⟩ := State.retireRecord_frame r ht' hr₁
    have hmsg : (s₁.retireRecord i r).message? = s.message? := State.message?_eq (by rw [hmsu])
    obtain ⟨u, hexec, hslots, hpins, hchu, hlines, hrla, hrlb⟩ :=
      exec_retire_made (tag := tag) hfull h (show purgeOf mode = some true by rw [hm]; rfl) hf hr ht'
    have hp := (s₁.retireRecord i r).purge_slotsOnly r.live
    have hcancelled : ∀ n, u.message? n =
        if n ∈ r.live then (s.message? n).bind Message.cancelled else s.message? n := by
      intro n
      rw [← hmsg, ← State.message?_purge]
      exact congrFun (State.message?_eq hslots) n
    refine ⟨u, hexec, fun n hn m hmn => ?_, fun n hn => ?_, hlines.trans (hp.lines.trans hw.lines),
      hchu.trans (hp.chu.trans hw.chu), hrla.trans (hp.rla.trans hw.rla), hrlb.trans (hp.rlb.trans hw.rlb),
      hpins.trans (hp.pins.trans hw.pins)⟩
    · rw [hcancelled, if_pos hn, hmn]; rfl
    · rw [hcancelled, if_neg hn]
  · intro s₁ r₁ r' gone hm hlive ht hr₁ hnd howned hgone hr'
    have ht' := maybeTouch_of_cases ht
    have hpurge : purgeOf mode = some true := by rw [hm]; rfl
    have hgone : gone = s.purgeable r := hgone.trans (s.purgeable_eq r).symm
    have hr' : r' = ({ r₁ with state := .retiring } : Record).purged s.message? s.pdu.period gone := by
      rw [hr', Record.purged]
      congr 1
      funext x n
      cases s.message? n <;> rfl
    obtain ⟨-, hadr, -, -, -, -, -, -, hlive₁⟩ := maybeTouch_fields ht' hr hr₁
    obtain ⟨hw, hfreeCount⟩ := State.purge_retired ht' hr₁ hnd howned
    rw [← hgone, ← hr'] at hw
    rw [← hgone] at hfreeCount
    have hothers : ∀ j, j ≠ i → (s₁.retired true i r).record? j = s₁.record? j := fun j hj => by
      rw [hw.record, Function.update_of_ne hj]
    obtain ⟨pstate, -, padr, ptag⟩ := Record.purged_fields { r₁ with state := .retiring } s.message? s.pdu.period gone
    rw [← hr'] at pstate padr ptag
    have plive : r'.live = [] ↔ gone = r.live := by
      rw [hr', Record.purged_live, hlive₁, hgone, State.purgeable_eq]
      · exact diff_filter_eq_nil_iff hnd _
      · intro n hn
        rw [hgone, State.purgeable_eq] at hn
        obtain ⟨m, hmn, -⟩ := howned n (List.mem_of_mem_filter hn)
        simp [hmn]
    have hcount : (if true then (s.purgeable r).length else 0) = gone.length := by rw [hgone]; rfl
    by_cases hall : gone = r.live
    · have htouch : s.touch false i = some s₁ := by
        have hreaches : s.retireReaches true r = true := by simp [State.retireReaches, ← hgone, hall]
        rwa [if_pos hreaches] at ht
      by_cases hroom : s₁.pdu.waiters = [] ∧ s₁.pdu.extract.length < 64
      · obtain ⟨hwaiters, hextract⟩ := hroom
        obtain ⟨t, hexec, hF⟩ := exec_retire_freed (tag := tag) hfull h hpurge hf hr ht' hcount rfl hw pstate htouch hr₁
          ptag (plive.mpr hall) hwaiters hextract
        obtain ⟨hfreed, hkept, hnumbers, haddresses⟩ := hw.freed hF (padr.trans hadr)
        refine ⟨_, hexec, ?_, hkept, hnumbers, fun he => absurd hall he, fun _ _ _ => ⟨hfreed, haddresses, ?_, ?_⟩,
          fun _ hno => ?_⟩
        · rw [State.respond_msu, hF.msu, hfreeCount]
        · rw [State.respond_pdu, hF.pdu, hw.pdu]; rfl
        · rw [State.respond_responses, hF.responses, hw.responses]; rfl
        · rcases hno with hne | hlong
          · exact absurd hwaiters hne
          · omega
      · have hnoroom : s₁.pdu.waiters ≠ [] ∨ 64 ≤ s₁.pdu.extract.length := by rwa [not_and_or, not_lt] at hroom
        obtain ⟨hmarked, hkept⟩ := hw.marked
        refine ⟨_, exec_retire_waits hfull h hpurge hf hr ht' hcount rfl hw pstate htouch hr₁ ptag (plive.mpr hall)
          hnoroom, hfreeCount, hkept, hw.numbers, fun he => absurd hall he, fun _ h1 h2 => absurd ⟨h1, h2⟩ hroom,
          fun _ _ => ⟨hmarked, hw.addresses, ?_, hw.responses, ?_⟩⟩
        · rw [← hw.pdu]; rfl
        · rw [← hw.inProgress]
    · refine ⟨_, exec_retire_drained hfull h hpurge hf hr ht' hcount rfl hw pstate (mt plive.mp hall), hfreeCount,
        hothers, hw.numbers, fun _ => ⟨?_, hw.addresses, hw.pdu, ?_⟩, fun he => absurd he hall, fun he => absurd he hall⟩
      · exact (congrFun hw.record i).trans (Function.update_self ..)
      · rw [State.respond_responses, hw.responses]; rfl

end Sys2Proof.Machine
end


section
namespace Sys2Proof.Machine
open Sys2Proof

/-! ## The settlement of one slot and of its owner -/

/-- `u` is `s` with slot `n`, which held `m`, FREE and out of its place; every other slot and place is as it was
(R41, R42). -/
structure State.SlotFreed (s u : State) (n : Nat) (m : Message) : Prop where
  gone : u.message? n = none
  reuse : (u.slot n).reuse = (s.slot n).reuse
  others : ∀ k, k ≠ n → u.message? k = s.message? k
  free : u.msu.free.toList = n :: s.msu.free.toList
  freeCount : u.msu.freeCount = s.msu.freeCount + 1
  lowWater : u.msu.lowWater = if s.msu.freeCount = 64 then false else s.msu.lowWater
  queues : ∀ q, u.dsu.queues.get q =
    if m.place = .queued then (s.dsu.queues.get q).erase n else s.dsu.queues.get q
  dsu : u.dsu = { s.dsu with
    queues := u.dsu.queues, staging := if m.place = .staged then none else s.dsu.staging }
  aru : u.aru = { s.aru with timed := if m.deadline = none then s.aru.timed else s.aru.timed.erase n }

section
variable {s t u v : State} {n i : Nat} {m : Message} {r : Record} {e : Ending}

theorem Queues.get_erase (q : Queues) (n : Nat) (k : QueueName) : (q.erase n).get k = (q.get k).erase n := by
  cases k <;> rfl

/-- A settlement takes the slot out of its place (R41). -/
theorem State.settle_slotFreed (e : Ending) (hm : s.message? n = some m) (hp : m.place ≠ .sending) :
    s.SlotFreed (s.settle e n) n m := by
  obtain ⟨hfree, hcount, -⟩ := State.settle_free_list (e := e) hm
  obtain ⟨hdsu, haru⟩ := State.settle_places (e := e) hm
  refine ⟨State.message?_settle_same .., State.settle_reuse .., fun k hk => State.message?_settle_other s e hk, ?_, hcount,
    State.settle_lowWater hm, ?_, ?_, ?_⟩
  · rw [hfree]; rfl
  · intro q
    rw [hdsu]
    cases hpl : m.place with
    | queued => exact Queues.get_erase ..
    | _ => rfl
  · rw [hdsu]
    cases hpl : m.place with
    | sending => exact absurd hpl hp
    | _ => rfl
  · rw [haru, Message.deadline]
    cases hpl : m.place <;> rfl

/-- What does not reach the slots and their places keeps a slot freed. -/
theorem State.SlotFreed.congr_right (h : s.SlotFreed u n m) (hmsu : ∃ flush, v.msu = { u.msu with flush })
    (hdsu : v.dsu = u.dsu) (haru : v.aru = u.aru) : s.SlotFreed v n m := by
  obtain ⟨flush, hmsu⟩ := hmsu
  have hslots : v.msu.slots = u.msu.slots := by rw [hmsu]
  exact
    { gone := (State.message?_congr hslots n).trans h.gone
      reuse := by rw [State.slot_congr hslots]; exact h.reuse
      others := fun k hk => (State.message?_congr hslots k).trans (h.others k hk)
      free := by rw [hmsu]; exact h.free
      freeCount := by rw [hmsu]; exact h.freeCount
      lowWater := by rw [hmsu]; exact h.lowWater
      queues := by rw [hdsu]; exact h.queues
      dsu := by rw [hdsu]; exact h.dsu
      aru := by rw [haru]; exact h.aru }

theorem State.SlotFreed.congr_left (h : t.SlotFreed u n m) (hmsu : t.msu = s.msu) (hdsu : t.dsu = s.dsu)
    (haru : t.aru = s.aru) : s.SlotFreed u n m := by
  have hslots : t.msu.slots = s.msu.slots := by rw [hmsu]
  exact
    { gone := h.gone
      reuse := by rw [← State.slot_congr hslots]; exact h.reuse
      others := fun k hk => (h.others k hk).trans (State.message?_congr hslots k)
      free := by rw [← hmsu]; exact h.free
      freeCount := by rw [← hmsu]; exact h.freeCount
      lowWater := by rw [← hmsu]; exact h.lowWater
      queues := by rw [← hdsu]; exact h.queues
      dsu := by rw [← hdsu]; exact h.dsu
      aru := by rw [← haru]; exact h.aru }

/-! ### The owner -/

/-- The need for a touch-sweep reads the period unit and the record's tag alone (R162). -/
theorem State.needsTouch_congr {r' : Record} (hpdu : t.pdu = s.pdu) (htag : r'.periodTag = r.periodTag) :
    t.needsTouch r' = s.needsTouch r := by
  simp only [State.needsTouch, State.sweepInProgress, hpdu, htag]

/-- A settled owner whose freeing waits for its closing entry (R24). -/
theorem Record.settled_closing (r : Record) (e : Ending) (m : Message) (period : Nat) (h : r.live.erase n = []) :
    { r.settled e n m period with closing := true } =
      { r.settle e m period with live := [], held := r.held.erase n, closing := true } := by
  simp [Record.settled, h]

theorem State.countFreed_msu (s : State) (holder : Holder) : ∃ flush, (s.countFreed holder).msu = { s.msu with flush } := by
  unfold State.countFreed; split <;> exact ⟨_, rfl⟩

/-- Of the store, the freeing of an owner writes no more than the counts of a TRAFFIC RESET (R51). -/
theorem State.freeOwner_msu (s : State) (anew : Bool) (i : Nat) (holder : Holder) :
    ∃ flush, (s.freeOwner anew i holder).1.msu = { s.msu with flush } := by
  rcases s.freeOwner_cases anew i holder with ⟨-, h⟩ | ⟨-, t, hw, h⟩ | ⟨-, -, h⟩ <;> rw [h]
  · exact ⟨_, rfl⟩
  · rcases State.writeClosing_cases (s.updateRecord i fun r => { r with closing := true }) anew i holder with
      ⟨-, h1⟩ | ⟨x, -, -, -, h1⟩ | ⟨x, -, -, -, h1⟩ | ⟨x, -, -, h1⟩ <;> rw [h1] at hw <;> cases hw
    · exact ⟨_, State.updateRecord_msu ..⟩
    all_goals
      obtain ⟨flush, hf⟩ := State.countFreed_msu _ holder
      exact ⟨flush, hf.trans (by simp)⟩
  · exact ⟨_, State.updateRecord_msu ..⟩

/-- The holder of a closing entry only decides what the written entry counts for (R51, R166). -/
theorem State.writeClosing_holder (anew : Bool) (holder : Holder) (hr : s.record? i = some r) :
    s.writeClosing anew i holder =
      (s.writeClosing anew i (.answer 0 [])).map fun t => t.countFreed holder := by
  have hcount : ∀ t : State, t.countFreed (.answer 0 []) = t := fun _ => rfl
  simp only [State.writeClosing, hr, hcount]
  cases s.needsTouch r
  · simp only [Bool.false_eq_true, if_false, hr]
    split <;> rfl
  · simp only [if_true, State.record?_closeRecord]
    split <;> rfl

/-- The freeing of an owner that is due and finds room, whatever it ends (R24, R166). -/
theorem State.freeOwner_freed_by (holder : Holder) (hr : s.record? i = some r) (hstate : r.state = .retiring)
    (hlive : r.live = []) (hneeds : s.needsTouch r = false) (hwaiters : s.pdu.waiters = [])
    (hextract : s.pdu.extract.length < 64) :
    ∃ t, s.freeOwner false i holder = (t.countFreed holder, false) ∧ s.Freed t i r := by
  obtain ⟨t, hfree, hF⟩ :=
    State.freeOwner_freed (place := 0) (params := []) hr hstate hlive hneeds hwaiters hextract
  have hdue : s.freeingDue i = true := (State.freeingDue_iff hr).mpr ⟨hstate, hlive⟩
  have hmark : (s.updateRecord i fun r => { r with closing := true }).record? i = some { r with closing := true } := by
    simp [hr]
  refine ⟨t, ?_, hF⟩
  simp only [State.freeOwner, if_pos hdue, State.beginFreeing, State.writeClosing_holder false holder hmark] at hfree ⊢
  generalize State.writeClosing _ false i (.answer 0 []) = written at hfree ⊢
  cases written with
  | none => cases hfree
  | some t' => cases hfree; rfl

theorem State.SlotFreed.freeOwner (h : s.SlotFreed u n m) (anew : Bool) (i : Nat) (holder : Holder) :
    s.SlotFreed (u.freeOwner anew i holder).1 n m := by
  obtain ⟨-, -, -, -, -, -, hdsu, -, -, haru, -⟩ := u.freeOwner_frame anew i holder
  exact h.congr_right (u.freeOwner_msu anew i holder) hdsu haru

/-! ### What becomes of the owner once its slot is settled -/

section
variable {w : State} (holder : Holder) (hr : w.record? i = some (r.settled e n m w.pdu.period))
  (hneeds : w.needsTouch (r.settled e n m w.pdu.period) = false)
include hr

/-- The owner stays: it is not RETIRING, or keeps a live slot (R24). -/
theorem State.freeOwner_settled_stays (h : r.state ≠ .retiring ∨ r.live.erase n ≠ []) :
    w.freeOwner false i holder = (w, false) :=
  State.freeOwner_notDue false holder hr (by simpa [Record.settled] using h)

include hneeds

/-- The owner is freed at once (R24). -/
theorem State.freeOwner_settled_freed (hstate : r.state = .retiring) (hlive : r.live.erase n = [])
    (hwaiters : w.pdu.waiters = []) (hextract : w.pdu.extract.length < 64) :
    ∃ t, w.freeOwner false i holder = (t.countFreed holder, false) ∧ w.Freed t i (r.settled e n m w.pdu.period) :=
  State.freeOwner_freed_by holder hr (by simpa [Record.settled] using hstate) hlive hneeds hwaiters hextract

/-- The owner waits for its closing entry (R24, R166). -/
theorem State.freeOwner_settled_waits (hstate : r.state = .retiring) (hlive : r.live.erase n = [])
    (hroom : w.pdu.waiters ≠ [] ∨ 64 ≤ w.pdu.extract.length) :
    w.freeOwner false i holder =
      ((w.putRecord i { r.settle e m w.pdu.period with
        live := [], held := r.held.erase n, closing := true }).wait false (.closing i holder), true) := by
  rw [State.freeOwner_waits hr (by simpa [Record.settled] using hstate) hlive hneeds hroom,
    Record.settled_closing _ _ _ _ hlive]

end

/-! ### The slot and its owner together -/

/-- `t` is `s` but for the records, the extract and the period entry count. -/
structure State.TableOnly (s t : State) : Prop where
  pins : t.pins = s.pins
  msu : t.msu = s.msu
  chu : t.chu = s.chu
  lines : t.lines = s.lines
  dsu : t.dsu = s.dsu
  rla : t.rla = s.rla
  rlb : t.rlb = s.rlb
  aru : t.aru = s.aru
  clu : t.clu = s.clu
  period : t.pdu.period = s.pdu.period
  tick : t.pdu.tick = s.pdu.tick

theorem State.touch_tableOnly {anew : Bool} (ht : s.touch anew i = some t) : s.TableOnly t := by
  obtain ⟨hpins, hmsu, hchu, hlines, hdsu, hrla, hrlb, haru, hclu, -, -, -, hperiod, htick, -⟩ := State.touch_frame ht
  exact ⟨hpins, hmsu, hchu, hlines, hdsu, hrla, hrlb, haru, hclu, hperiod, htick⟩

theorem State.TableOnly.message? (h : s.TableOnly t) (n : Nat) : t.message? n = s.message? n :=
  State.message?_congr (by rw [h.msu]) n

/-- `u` is `s` after the settlement of slot `n`, with `s₁` as the touch-sweep of the owner left the other records
(R41). -/
structure State.SlotSettled (s s₁ u : State) (n : Nat) (m : Message) : Prop extends s.SlotFreed u n m where
  records : ∀ j, j ≠ m.owner → u.record? j = s₁.record? j
  pins : u.pins = s.pins
  chu : u.chu = s.chu
  lines : u.lines = s.lines
  rla : u.rla = s.rla
  rlb : u.rlb = s.rlb

variable {s₁ w : State}

theorem State.settle_slotSettled (e : Ending) (hst : s.TableOnly t)
    (hrec : ∀ j, j ≠ m.owner → t.record? j = s₁.record? j) (hm : s.message? n = some m) (hp : m.place ≠ .sending) :
    s.SlotSettled s₁ (t.settle e n) n m := by
  have hmt : t.message? n = some m := (hst.message? n).trans hm
  refine ⟨(State.settle_slotFreed e hmt hp).congr_left hst.msu hst.dsu hst.aru,
    fun j hj => (State.record?_settle_other hmt hj).trans (hrec j hj), ?_, ?_, ?_, ?_, ?_⟩
  · rw [State.settle_pins, hst.pins]
  · rw [State.settle_chu, hst.chu]
  · rw [State.settle_lines, hst.lines]
  · rw [State.settle_rla, hst.rla]
  · rw [State.settle_rlb, hst.rlb]

theorem State.SlotSettled.freeOwner (h : s.SlotSettled s₁ w n m) (anew : Bool) (holder : Holder) :
    s.SlotSettled s₁ (w.freeOwner anew m.owner holder).1 n m := by
  obtain ⟨-, -, -, hpins, hchu, hlines, -, hrla, hrlb, -, -, -, hrec⟩ := w.freeOwner_frame anew m.owner holder
  exact ⟨h.toSlotFreed.freeOwner .., fun j hj => (hrec j hj).trans (h.records j hj), hpins.trans h.pins,
    hchu.trans h.chu, hlines.trans h.lines, hrla.trans h.rla, hrlb.trans h.rlb⟩

theorem State.SlotSettled.withClu (h : s.SlotSettled s₁ u n m) (clu : Clu) : s.SlotSettled s₁ { u with clu } n m :=
  ⟨h.toSlotFreed.congr_right ⟨_, rfl⟩ rfl rfl, h.records, h.pins, h.chu, h.lines, h.rla, h.rlb⟩

/-- The owner of a settled slot, and that no touch-sweep of it is due, as the one it needed is made (R162). -/
theorem State.settle_owner (e : Ending) (hm : t.message? n = some m) (hr : t.record? m.owner = some r)
    (hneeds : t.needsTouch r = false) :
    (t.settle e n).record? m.owner = some (r.settled e n m (t.settle e n).pdu.period) ∧
      (t.settle e n).needsTouch (r.settled e n m (t.settle e n).pdu.period) = false := by
  refine ⟨?_, (State.needsTouch_congr (State.settle_pdu ..) (by simp [Record.settled])).trans hneeds⟩
  rw [State.settle_pdu, State.record?_settle_fun hm hr, Function.update_self]

theorem State.raiseFree_notices (h : s.clu.notices.length < 32) : s.raiseFree.clu.notices =
    s.clu.notices ++ if s.msu.freeCount = 64 then [⟨.storeRecovered 65, s.pdu.tick⟩] else [] := by
  unfold State.raiseFree
  by_cases hcount : s.msu.freeCount = Config.lowWater
  · have hcount' : s.msu.freeCount = 64 := hcount
    rw [if_pos hcount, if_pos hcount', hcount']
    exact State.raise_notices h
  · have hcount' : s.msu.freeCount ≠ 64 := hcount
    rw [if_neg hcount, if_neg hcount', List.append_nil]

/-- The 65th free slot is noticed (R36). -/
theorem State.settle_notices (e : Ending) (hm : s.message? n = some m) (h : s.clu.notices.length < 32) :
    (s.settle e n).clu.notices =
      s.clu.notices ++ if s.msu.freeCount = 64 then [⟨.storeRecovered 65, s.pdu.tick⟩] else [] := by
  rw [State.settle_eq hm, State.freeSlot_eq, State.raiseFree_notices (by simpa using h)]
  simp [State.putSlot]

end

end Sys2Proof.Machine
end


section
namespace Sys2Proof.Machine
open Sys2Proof

/-! ## CANCEL -/

section
variable {s s₁ t : State} {n place : Nat} {m : Message} {r : Record} {tag : Byte} {reference : BitVec 16}
  {why : Result} {params : List Byte}

/-- A reference is current when its slot is not FREE and carries its reuse count (R30). -/
theorem State.currentSlot_eq {ref : Nat} (hm : s.message? (ref % 2048) = some m)
    (hreuse : (s.slot (ref % 2048)).reuse = ref / 2048) : s.currentSlot ref = some (ref % 2048) := by
  simp [State.currentSlot, Config.slotCount, hm, hreuse]

theorem State.currentSlot_stale {ref : Nat}
    (h : s.message? (ref % 2048) = none ∨ (s.slot (ref % 2048)).reuse ≠ ref / 2048) : s.currentSlot ref = none := by
  rcases h with h | h <;> simp [State.currentSlot, Config.slotCount, h]

/-! ### What a CANCEL answers -/

theorem takeCancel_not_ready (h : s.stu.state ≠ .ready) :
    takeCancel false place reference s = (s, .now .tableNotReady []) := by
  simp [takeCancel, State.ready_eq_false h]

theorem takeCancel_stale (h : s.stu.state = .ready) (hc : s.currentSlot reference.toNat = none) :
    takeCancel false place reference s = (s, .now .staleReference []) := by
  simp [takeCancel, State.ready_eq_true h, hc]

section
variable (h : s.stu.state = .ready) (hc : s.currentSlot reference.toNat = some n) (hm : s.message? n = some m)
include h hc hm

/-- A slot being sent that is acknowledged is left alone (R44). -/
theorem takeCancel_acknowledged (hp : m.place = .sending) (ha : m.ackPending = true) :
    takeCancel false place reference s = (s, .now .ok [2]) := by
  simp [takeCancel, State.ready_eq_true h, hc, hm, Message.disposition, hp, ha]; rfl

/-- A slot being sent is marked (R44). -/
theorem takeCancel_pending (hp : m.place = .sending) (ha : m.ackPending = false) :
    takeCancel false place reference s =
      (s.updateMessage n fun m => { m with cancelPending := true }, .now .ok [1]) := by
  simp [takeCancel, State.ready_eq_true h, hc, hm, State.cancelSlot, Message.disposition, hp, ha]; rfl

/-- The touch-sweep of the owner finds no room (R45, R164). -/
theorem takeCancel_waits (hp : m.place ≠ .sending) (ht : s.touch false m.owner = none) :
    takeCancel false place reference s = (s.wait false (.command place (.cancel reference)), .later) := by
  simp [takeCancel, State.ready_eq_true h, hc, hm, Message.disposition_settled.mpr hp, ht]

/-- Any other slot is settled, and its owner freed where that is due (R41, R44). -/
theorem takeCancel_settles (hp : m.place ≠ .sending) (ht : s.touch false m.owner = some s₁) {waits : Bool}
    (hfree : (s₁.settle .cancelled n).freeOwner false m.owner (.answer place m.settledReply) = (t, waits)) :
    takeCancel false place reference s = (t, if waits then .later else .now .ok m.settledReply) := by
  have hd := Message.disposition_settled.mpr hp
  have hcancel : s₁.cancelSlot n m = s₁.settle .cancelled n := by simp [State.cancelSlot, hd]
  cases waits <;> simp [takeCancel, State.ready_eq_true h, hc, hm, hd, ht, hcancel, hfree]

end

/-! ### The row CANCEL -/

theorem exec_cancel_now (hfull : s.responseFull = false)
    (ht : takeCancel false s.freshPlace reference s = (t, .now why params)) :
    exec (.cancel tag reference) s = .next (t.respond ⟨0x20, tag, why, params⟩).afterTraffic := by
  refine congrArg Host.Outcome.next ?_
  rw [startCancel, State.startTraffic, hfull, State.start_now hfull ht]
  rfl

theorem exec_cancel_later (hfull : s.responseFull = false)
    (ht : takeCancel false s.freshPlace reference s = (t, .later)) :
    exec (.cancel tag reference) s = .next (State.afterTraffic { t with clu := { t.clu with
      inProgress := t.clu.inProgress ++ [⟨s.freshPlace, 0x20, tag⟩] } }) := by
  refine congrArg Host.Outcome.next ?_
  rw [startCancel, State.startTraffic, hfull, State.start_later hfull ht]
  rfl

/-- What a CANCEL that has settled its slot leaves before the end of its event: it stays in progress while the closing
entry of the owner waits, and is answered otherwise (R24, R43). -/
def State.cancelled (p : State × Bool) (place : Nat) (tag : Byte) (m : Message) : State :=
  if p.2 then { p.1 with clu := { p.1.clu with inProgress := p.1.clu.inProgress ++ [⟨place, 0x20, tag⟩] } }
  else p.1.respond ⟨0x20, tag, .ok, m.settledReply⟩

theorem exec_cancel_settles (hfull : s.responseFull = false) (h : s.stu.state = .ready)
    (hc : s.currentSlot reference.toNat = some n) (hm : s.message? n = some m) (hp : m.place ≠ .sending)
    (ht : s.touch false m.owner = some s₁) : exec (.cancel tag reference) s =
      .next (State.cancelled ((s₁.settle .cancelled n).freeOwner false m.owner (.answer s.freshPlace m.settledReply))
        s.freshPlace tag m).afterTraffic := by
  obtain ⟨t, waits, hfree⟩ : ∃ t waits, (s₁.settle .cancelled n).freeOwner false m.owner
      (.answer s.freshPlace m.settledReply) = (t, waits) := ⟨_, _, rfl⟩
  have htake := takeCancel_settles h hc hm hp ht hfree
  rw [hfree]
  cases waits with
  | false => exact exec_cancel_now hfull htake
  | true => exact exec_cancel_later hfull htake

/-- The answer of a CANCEL reaches the command link alone. -/
theorem State.cancelled_clu (p : State × Bool) (place : Nat) (tag : Byte) (m : Message) :
    ∃ clu, State.cancelled p place tag m = { p.1 with clu } := by
  unfold State.cancelled
  split <;> exact ⟨_, rfl⟩

/-- Settles O27: the slot and its owner by `State.settle_slotSettled`, and the three things that become of the owner by
`State.freeOwner_settled_stays`, `State.freeOwner_settled_freed` and `State.freeOwner_settled_waits`. -/
theorem cancelActsByState : Obligations.CancelActsByState := by
  intro tag reference s hfull
  refine ⟨fun h => exec_cancel_now hfull (takeCancel_not_ready h),
    fun h hstale => exec_cancel_now hfull (takeCancel_stale h (State.currentSlot_stale hstale)), ?_⟩
  rintro n m rfl h hm hreuse
  have hc := State.currentSlot_eq hm hreuse
  refine ⟨fun hp ha => exec_cancel_now hfull (takeCancel_acknowledged h hc hm hp ha),
    fun hp ha => exec_cancel_now hfull (takeCancel_pending h hc hm hp ha),
    fun hp ht => by rw [exec_cancel_later hfull (takeCancel_waits h hc hm hp ht)]; rfl, ?_⟩
  intro s₁ r hp ht hr
  generalize reference.toNat % 2048 = n at *
  refine ⟨_, exec_cancel_settles hfull h hc hm hp ht, ?_⟩
  have htable := State.touch_tableOnly ht
  have hm₁ := (htable.message? n).trans hm
  have honly := State.SlotsOnly.settle s₁ .cancelled n
  have hsettled := State.settle_slotSettled .cancelled htable (fun _ _ => rfl) hm hp
  have hnotices := State.settle_notices .cancelled hm₁
  obtain ⟨howner, hneeds⟩ := State.settle_owner .cancelled hm₁ hr (State.touch_needs ht hr)
  have hperiod : (s₁.settle .cancelled n).pdu.period = s.pdu.period := by rw [honly.pdu, htable.period]
  have hresponses := honly.responses.trans (congrArg (·.responses) htable.clu)
  have hprogress := honly.inProgress.trans (congrArg (·.inProgress) htable.clu)
  rw [htable.clu, htable.msu, htable.tick] at hnotices
  generalize s₁.settle .cancelled n = w at *
  obtain ⟨clu, hclu⟩ := State.cancelled_clu
    (w.freeOwner false m.owner (.answer s.freshPlace m.settledReply)) s.freshPlace tag m
  have hu := (hsettled.freeOwner false (.answer s.freshPlace m.settledReply)).withClu clu
  rw [← hclu] at hu
  refine ⟨hu.gone, hu.reuse, hu.others, hu.free, hu.freeCount, hu.records, hu.queues, hu.dsu, hu.aru, hu.lowWater,
    hu.lines, hu.chu, hu.rla, hu.rlb, hu.pins, fun hstays => ?_, fun hstate hlive => ⟨fun hwaiters hextract => ?_,
    fun hroom => ?_⟩⟩
  · rw [State.freeOwner_settled_stays _ howner hstays]
    exact ⟨by rw [← hperiod]; exact howner, congrArg (· ++ _) hresponses, hnotices, honly.pdu⟩
  · obtain ⟨t, hfree, hF⟩ := State.freeOwner_settled_freed (.answer s.freshPlace m.settledReply) howner hneeds hstate
      hlive (by rw [honly.pdu]; exact hwaiters) (by rw [honly.pdu]; exact hextract)
    rw [hfree]
    refine ⟨?_, congrArg (· ++ _) (hF.responses.trans hresponses)⟩
    exact (congrFun hF.record m.owner).trans (Function.update_self ..)
  · rw [State.freeOwner_settled_waits _ howner hneeds hstate hlive (by rw [honly.pdu]; exact hroom), hperiod]
    refine ⟨State.record?_putRecord_same .., hresponses, congrArg (· ++ _) hprogress, ?_⟩
    rw [← honly.pdu]; rfl

end

end Sys2Proof.Machine
end


section
namespace Sys2Proof.Machine
open Sys2Proof

/-! ## TRAFFIC RESET and its flush walk -/

section
variable {s s₁ t : State} {n place : Nat} {m : Message} {r : Record} {tag : Byte} {f : TrafficReset}

/-! ### TRAFFIC RESET -/

theorem takeTrafficReset_not_ready (h : s.stu.state ≠ .ready) :
    takeTrafficReset place s = (s, .now .tableNotReady []) := by
  simp [takeTrafficReset, State.ready_eq_false h]

theorem takeTrafficReset_busy (h : s.stu.state = .ready) (hf : s.msu.flush.isSome = true) :
    takeTrafficReset place s = (s, .now .resetBusy []) := by
  simp [takeTrafficReset, State.ready_eq_true h, State.resetting, hf]

theorem takeTrafficReset_begins (h : s.stu.state = .ready) (hf : s.msu.flush = none) :
    takeTrafficReset place s =
      ({ s with msu := { s.msu with flush := some ⟨place, 0, 0, 0⟩ }, lines := s.lines.map Line.trafficReset },
        .later) := by
  simp [takeTrafficReset, State.ready_eq_true h, State.resetting, hf]

theorem exec_trafficReset_now {why : Result} (hfull : s.responseFull = false)
    (ht : takeTrafficReset s.freshPlace s = (t, .now why [])) :
    exec (.trafficReset tag) s = .next (t.respond ⟨0x22, tag, why, []⟩) :=
  congrArg Host.Outcome.next (State.start_now hfull ht)

theorem exec_trafficReset_later (hfull : s.responseFull = false)
    (ht : takeTrafficReset s.freshPlace s = (t, .later)) :
    exec (.trafficReset tag) s = .next { t with clu := { t.clu with
      inProgress := t.clu.inProgress ++ [⟨s.freshPlace, 0x22, tag⟩] } } :=
  congrArg Host.Outcome.next (State.start_later hfull ht)

theorem Four.get_map {α : Type} (g : α → α) (v : Four α) (n : Fin 4) : (v.map g).get n = g (v.get n) := by
  unfold Four.get
  split_ifs <;> rfl

/-- A line with no frame in assembly sees nothing of a TRAFFIC RESET (R104). -/
theorem Line.trafficReset_other {l : Line} (h : l.state ≠ .assembling) : l.trafficReset = l := if_neg h

/-- A frame in assembly is discarded without a reply, and its exchange ends (R77, R104). -/
theorem Line.trafficReset_assembling {l : Line} (h : l.state = .assembling) :
    l.trafficReset.frame = none ∧ l.trafficReset.reply = [] ∧ l.trafficReset.interTimer = none ∧
      l.trafficReset.state = if l.disablePending then .disabled else .idle := by
  rw [Line.trafficReset, if_pos h, Line.endExchange]
  split
  · exact ⟨rfl, rfl, rfl, rfl⟩
  · unfold Line.moveOn
    split <;> exact ⟨rfl, rfl, rfl, rfl⟩

/-! ### The flush walk -/

/-- The row does nothing with no walk to go on with (R49). -/
theorem exec_flushWalkStep_idle
    (h : s.msu.flush = none ∨ (∃ f, s.msu.flush = some f ∧ 2048 ≤ f.cursor) ∨ s.walkWaits = true) :
    exec .flushWalkStep s = .next s := by
  refine congrArg Host.Outcome.next (if_neg ?_)
  rcases h with h | ⟨f, hf, hcursor⟩ | h
  · simp [h]
  · simp [hf, Config.slotCount, Nat.not_lt.mpr hcursor]
  · simp [h]

/-- The row is the walk's visit of the slot at its cursor (R49). -/
theorem exec_flushWalkStep_visits (hf : s.msu.flush = some f) (hcursor : f.cursor < 2048)
    (hwalk : s.walkWaits = false) :
    exec .flushWalkStep s = .next (s.flushSlot false f.cursor).afterTraffic := by
  refine congrArg Host.Outcome.next ((if_pos ?_).trans ?_)
  · simp [hf, hwalk, Config.slotCount, hcursor]
  · simp [State.flushStep, hf, Config.slotCount, hcursor]

/-- A FREE or SENDING slot is passed over (R49). -/
theorem State.flushSlot_passes (h : s.message? n = none ∨ ∃ m, s.message? n = some m ∧ m.place = .sending) :
    s.flushSlot false n = s.advanceCursor := by
  rcases h with h | ⟨m, hm, hp⟩
  · simp [State.flushSlot, h]
  · simp [State.flushSlot, hm, hp]

theorem State.flushSlot_waits (hm : s.message? n = some m) (hp : m.place ≠ .sending)
    (ht : s.touch false m.owner = none) : s.flushSlot false n = s.wait false .walk := by
  cases hpl : m.place with
  | sending => exact absurd hpl hp
  | _ => simp [State.flushSlot, hm, hpl, ht]

/-- The walk goes on from a slot it has settled, unless the closing entry of the owner waits (R49). -/
def State.flushed (p : State × Bool) : State := if p.2 then p.1 else p.1.advanceCursor

theorem State.flushSlot_settles (hm : s.message? n = some m) (hp : m.place ≠ .sending)
    (ht : s.touch false m.owner = some s₁) : s.flushSlot false n =
      State.flushed (((s₁.settle .flushed n).countFlushed).freeOwner false m.owner .walk) := by
  obtain ⟨t, waits, hfree⟩ : ∃ t waits, ((s₁.settle .flushed n).countFlushed).freeOwner false m.owner .walk =
    (t, waits) := ⟨_, _, rfl⟩
  cases hpl : m.place with
  | sending => exact absurd hpl hp
  | _ => cases waits <;> simp [State.flushSlot, hm, hpl, ht, hfree, State.flushed]

/-- The walk's cursor reaches the counts of the TRAFFIC RESET alone. -/
theorem State.flushed_flush (p : State × Bool) :
    ∃ flush, State.flushed p = { p.1 with msu := { p.1.msu with flush } } := by
  unfold State.flushed
  split <;> exact ⟨_, rfl⟩

theorem State.SlotSettled.withFlush {u : State} (h : s.SlotSettled s₁ u n m) (flush : Option TrafficReset) :
    s.SlotSettled s₁ { u with msu := { u.msu with flush } } n m :=
  ⟨h.toSlotFreed.congr_right ⟨_, rfl⟩ rfl rfl, h.records, h.pins, h.chu, h.lines, h.rla, h.rlb⟩

end

/-- Settles O28: TRAFFIC RESET line by line, and the visit of a slot by `State.flushSlot_settles`, with what becomes of
the owner as for CANCEL. -/
theorem trafficResetAndFlushWalk : Obligations.TrafficResetAndFlushWalk := by
  refine ⟨fun tag s hfull => ⟨fun h => ?_, fun h hf => ?_, fun h hf => ?_⟩, fun s f hf hcursor hwalk => ?_,
    fun s h => exec_flushWalkStep_idle h⟩
  · exact exec_trafficReset_now hfull (takeTrafficReset_not_ready h)
  · exact exec_trafficReset_now hfull (takeTrafficReset_busy h hf)
  · refine ⟨_, exec_trafficReset_later hfull (takeTrafficReset_begins h hf), rfl, rfl, fun n hn => ?_, fun n hn => ?_,
      rfl, rfl, rfl, rfl, rfl, rfl, rfl⟩
    · exact (Four.get_map ..).trans (Line.trafficReset_other hn)
    · have hline := Four.get_map Line.trafficReset s.lines n
      simp only [State.line, hline]
      exact Line.trafficReset_assembling hn
  rw [exec_flushWalkStep_visits hf hcursor hwalk]
  refine ⟨fun h => ?_, fun m hm hp ht => ?_, fun m s₁ r hm hp ht hr => ?_⟩
  · rw [State.flushSlot_passes h, State.advanceCursor, hf]; rfl
  · rw [State.flushSlot_waits hm hp ht]; rfl
  refine ⟨_, congrArg (Host.Outcome.next ∘ State.afterTraffic) (State.flushSlot_settles hm hp ht), ?_⟩
  have htable := State.touch_tableOnly ht
  have hm₁ := (htable.message? f.cursor).trans hm
  have hsettled : s.SlotSettled s₁ (s₁.settle .flushed f.cursor).countFlushed f.cursor m :=
    (State.settle_slotSettled .flushed htable (fun _ _ => rfl) hm hp).withFlush _
  have hpdu : (s₁.settle .flushed f.cursor).countFlushed.pdu = s₁.pdu := State.settle_pdu ..
  obtain ⟨howner, hneeds⟩ : (s₁.settle .flushed f.cursor).countFlushed.record? m.owner =
        some (r.settled .flushed f.cursor m (s₁.settle .flushed f.cursor).countFlushed.pdu.period) ∧
      (s₁.settle .flushed f.cursor).countFlushed.needsTouch
        (r.settled .flushed f.cursor m (s₁.settle .flushed f.cursor).countFlushed.pdu.period) = false :=
    State.settle_owner .flushed hm₁ hr (State.touch_needs ht hr)
  have hperiod : (s₁.settle .flushed f.cursor).countFlushed.pdu.period = s.pdu.period := by rw [hpdu, htable.period]
  have hflush : (s₁.settle .flushed f.cursor).countFlushed.msu.flush = some { f with flushed := f.flushed + 1 } := by
    obtain ⟨-, -, hkept⟩ := State.settle_free_list (e := .flushed) hm₁
    rw [State.countFlushed, hkept, htable.msu, hf]; rfl
  generalize (s₁.settle .flushed f.cursor).countFlushed = w at *
  obtain ⟨flush, hcounts⟩ := State.flushed_flush (w.freeOwner false m.owner .walk)
  have hu := (hsettled.freeOwner false .walk).withFlush flush
  rw [← hcounts] at hu
  refine ⟨hu.gone, hu.others, hu.records, hu.queues, hu.dsu, hu.aru, fun hstays => ?_,
    fun hstate hlive => ⟨fun hwaiters hextract => ?_, fun hroom => ?_⟩⟩
  · rw [State.freeOwner_settled_stays _ howner hstays]
    refine ⟨by rw [← hperiod]; exact howner, ?_, hpdu⟩
    simp [State.flushed, State.advanceCursor, hflush]
  · obtain ⟨t, hfree, hF⟩ := State.freeOwner_settled_freed .walk howner hneeds hstate
      hlive (by rw [hpdu]; exact hwaiters) (by rw [hpdu]; exact hextract)
    rw [hfree]
    refine ⟨(congrFun hF.record m.owner).trans (Function.update_self ..), ?_⟩
    simp [State.flushed, State.advanceCursor, State.countFreed, hF.msu, hflush]
  · rw [State.freeOwner_settled_waits _ howner hneeds hstate hlive (by rw [hpdu]; exact hroom)]
    refine ⟨hflush, ?_⟩
    rw [← hpdu]; rfl

end Sys2Proof.Machine
end


section
namespace Sys2Proof.Machine
open Sys2Proof

/-! ## REPORT_TAKEN -/

/-! ### Releasing held slots -/

section
variable {s : State} {l : List Nat}

theorem State.message?_releaseSlot (s : State) (n k : Nat) : (s.releaseSlot n).message? k =
    if k = n then (s.message? k).map Message.release else s.message? k := by
  have hstart : ∀ k, ({ s with aru := { s.aru with timed := s.aru.timed.erase n } } : State).message? k = s.message? k :=
    fun _ => rfl
  by_cases hk : k = n
  · subst hk
    simp only [State.releaseSlot, State.message?_enqueue, State.message?_updateMessage_same, hstart, if_true]
    rfl
  · simp only [State.releaseSlot, State.message?_enqueue, State.message?_updateMessage_other _ _ hk, hstart, if_neg hk]

/-- Slots released one after another, each once: to the tail of RETRY in their order, and out of the timed list (R139). -/
theorem State.foldl_releaseSlot (hl : l.Nodup) :
    (∀ k, (l.foldl State.releaseSlot s).message? k =
      if k ∈ l then (s.message? k).map Message.release else s.message? k) ∧
    (l.foldl State.releaseSlot s).dsu =
      { s.dsu with queues := { s.dsu.queues with retry := s.dsu.queues.retry ++ l } } ∧
    (l.foldl State.releaseSlot s).aru = { s.aru with timed := s.aru.timed.diff l } := by
  induction l generalizing s with
  | nil => simp
  | cons n l ih =>
    obtain ⟨hn, hl⟩ := List.nodup_cons.mp hl
    obtain ⟨hmessage, hdsu, haru⟩ := ih (s := s.releaseSlot n) hl
    refine ⟨fun k => ?_, ?_, ?_⟩
    · rw [List.foldl_cons, hmessage, State.message?_releaseSlot]
      by_cases hk : k = n
      · subst hk; simp [hn]
      · simp [hk]
    · rw [List.foldl_cons, hdsu]
      simp [State.releaseSlot, State.enqueue, Queues.get, Queues.set]
    · rw [List.foldl_cons, haru]
      simp [State.releaseSlot, State.enqueue]

/-- A release reaches the slots and their places alone (R139). -/
theorem State.foldl_releaseSlot_frame (s : State) (l : List Nat) :
    (l.foldl State.releaseSlot s).stu = s.stu ∧ (l.foldl State.releaseSlot s).pdu = s.pdu ∧
    (l.foldl State.releaseSlot s).clu = s.clu ∧ (l.foldl State.releaseSlot s).lines = s.lines ∧
    (l.foldl State.releaseSlot s).chu = s.chu ∧ (l.foldl State.releaseSlot s).rla = s.rla ∧
    (l.foldl State.releaseSlot s).rlb = s.rlb := by
  induction l generalizing s with
  | nil => simp
  | cons n l ih => simpa using ih (s.releaseSlot n)

end

/-! ### The head report of a link -/

section
variable {s s₁ t : State} {l : Link} {rep : Report} {rest : List Report} {i n tag zone address : Nat} {r : Record}
  {m : Message}

theorem State.receiver_congr (ha : t.rla = s.rla) (hb : t.rlb = s.rlb) (l : Link) : t.receiver l = s.receiver l := by
  cases l
  · exact ha
  · exact hb

/-- A link without its head report; the removal that leaves the FIFO empty ends the drop episode (R132, R135). -/
def Receiver.popped (r : Receiver) (rest : List Report) : Receiver :=
  { r with fifo := rest, episode := r.episode && !rest.isEmpty }

theorem State.popReport_eq (hq : (s.receiver l).fifo = rep :: rest) (ht : t.receiver l = s.receiver l) :
    t.popReport l = t.putReceiver l ((s.receiver l).popped rest) := by
  simp [State.popReport, ht, hq, Receiver.popped]

theorem State.receiver_popReport (hq : (s.receiver l).fifo = rep :: rest) (ht : t.receiver l = s.receiver l) :
    (t.popReport l).receiver l = (s.receiver l).popped rest := by
  rw [State.popReport_eq hq ht, State.receiver_putReceiver]

@[simp] theorem State.message?_popReport (s : State) (l : Link) (n : Nat) :
    (s.popReport l).message? n = s.message? n := State.message?_congr (by simp) n

@[simp] theorem State.record?_popReport (s : State) (l : Link) (i : Nat) :
    (s.popReport l).record? i = s.record? i := State.record?_congr (by simp) i

/-- The row does nothing on an empty FIFO, or while the head report waits (R136). -/
theorem exec_reportTaken_idle (h : (s.receiver l).fifo = [] ∨ s.reportWaits l = true) :
    exec (.reportTaken l) s = .next s := by
  refine congrArg Host.Outcome.next (if_neg ?_)
  rcases h with h | h <;> simp [h]

theorem exec_reportTaken_takes (hq : (s.receiver l).fifo = rep :: rest) (hw : s.reportWaits l = false) :
    exec (.reportTaken l) s = .next (s.takeReport false l).afterTraffic :=
  congrArg Host.Outcome.next (if_pos (by simp [hq, hw]))

/-- A report is discarded while the table is not READY, and ignored for an unknown address or a ONE-WAY record
(R135). -/
theorem State.takeReport_ignores (hq : (s.receiver l).fifo = rep :: rest)
    (h : s.stu.state ≠ .ready ∨ s.findAddress rep.address = none ∨
      ∃ i r, s.findAddress rep.address = some i ∧ s.record? i = some r ∧ r.kind = .oneWay) :
    s.takeReport false l = s.popReport l := by
  by_cases hready : s.stu.state = .ready
  · rcases h with h | h | ⟨i, r, hf, hr, hk⟩
    · exact absurd hready h
    · simp [State.takeReport, hq, State.ready_eq_true hready, h]
    · simp [State.takeReport, hq, State.ready_eq_true hready, hf, hr, hk]
  · simp [State.takeReport, hq, State.ready_eq_false hready]

section
variable (hready : s.stu.state = .ready) (hr : s.record? i = some r) (hk : r.kind = .twoWay)
include hready hr hk

theorem State.takeReport_leave (hq : (s.receiver l).fifo = .leave address zone :: rest)
    (hf : s.findAddress (Report.leave address zone).address = some i) :
    s.takeReport false l = (s.setPresence i .away).popReport l := by
  simp [State.takeReport, hq, State.ready_eq_true hready, hf, hr, hk]

theorem State.takeReport_register (hq : (s.receiver l).fifo = .register address zone :: rest)
    (hf : s.findAddress (Report.register address zone).address = some i) :
    s.takeReport false l = (s.takeRegister i r zone).popReport l := by
  simp [State.takeReport, hq, State.ready_eq_true hready, hf, hr, hk]

theorem State.takeReport_ack (hq : (s.receiver l).fifo = .ack address tag zone :: rest)
    (hf : s.findAddress (Report.ack address tag zone).address = some i) :
    s.takeReport false l = s.takeAck false l i r tag zone := by
  simp [State.takeReport, hq, State.ready_eq_true hready, hf, hr, hk]

end

/-! ### Acknowledgements -/

/-- An ACK matches no slot where no aired one carries its tag (R137). -/
theorem State.ackedSlot_none
    (h : ∀ n ∈ r.live, ∀ m, s.message? n = some m → m.tag = tag → m.aired = false) : s.ackedSlot r tag = none := by
  unfold State.ackedSlot
  cases hfind : r.live.find? fun n => (s.message? n).any fun m => m.tag == tag with
  | none => rfl
  | some n =>
    have htag := List.find?_some hfind
    cases hm : s.message? n with
    | none => simp [hm] at htag
    | some m =>
      have haired := h n (List.mem_of_find?_eq_some hfind) m hm (by simpa [hm] using htag)
      simp [hm, haired]

/-- An ACK matches the aired slot that alone carries its tag (R137). -/
theorem State.ackedSlot_some (hn : n ∈ r.live) (hm : s.message? n = some m) (htag : m.tag = tag) (haired : m.aired = true)
    (halone : ∀ k ∈ r.live, k ≠ n → ∀ m', s.message? k = some m' → m'.tag ≠ tag) :
    s.ackedSlot r tag = some (n, m) := by
  have hfind : r.live.find? (fun n => (s.message? n).any fun m => m.tag == tag) = some n := by
    cases hfind : r.live.find? fun n => (s.message? n).any fun m => m.tag == tag with
    | none => simpa [hm, htag] using List.find?_eq_none.mp hfind n hn
    | some k =>
      have hktag := List.find?_some hfind
      cases hmk : s.message? k with
      | none => simp [hmk] at hktag
      | some m' =>
        refine congrArg some (by_contra fun hk => ?_)
        exact halone k (List.mem_of_find?_eq_some hfind) hk m' hmk (by simpa [hmk] using hktag)
  simp [State.ackedSlot, hfind, hm, haired]

theorem State.takeAck_unmatched (ha : s.ackedSlot r tag = none) :
    s.takeAck false l i r tag zone = (s.setPresence i (.here zone)).popReport l := by
  simp [State.takeAck, ha]

/-- A slot being sent is marked acknowledged (R138). -/
theorem State.takeAck_marks (ha : s.ackedSlot r tag = some (n, m)) (hp : m.place = .sending) :
    s.takeAck false l i r tag zone =
      ((s.setPresence i (.here zone)).updateMessage n fun m => { m with ackPending := true }).popReport l := by
  simp [State.takeAck, ha, hp]

theorem State.takeAck_waits (ha : s.ackedSlot r tag = some (n, m)) (hp : m.place ≠ .sending)
    (ht : s.touch false i = none) : s.takeAck false l i r tag zone = s.wait false (.report l) := by
  cases hpl : m.place with
  | sending => exact absurd hpl hp
  | _ => simp [State.takeAck, ha, hpl, ht]

/-- A report that has settled its slot leaves its link, unless the closing entry of the owner waits (R136). -/
def State.reported (l : Link) (p : State × Bool) : State := if p.2 then p.1 else p.1.popReport l

theorem State.takeAck_settles (ha : s.ackedSlot r tag = some (n, m)) (hp : m.place ≠ .sending)
    (ht : s.touch false i = some s₁) : s.takeAck false l i r tag zone =
      State.reported l (((s₁.setPresence i (.here zone)).settle .delivered n).freeOwner false i (.report l)) := by
  obtain ⟨t, waits, hfree⟩ : ∃ t waits, ((s₁.setPresence i (.here zone)).settle .delivered n).freeOwner false i
    (.report l) = (t, waits) := ⟨_, _, rfl⟩
  cases hpl : m.place with
  | sending => exact absurd hpl hp
  | _ => cases waits <;> simp [State.takeAck, ha, hpl, ht, hfree, State.reported]

/-- The end of a report reaches the links alone. -/
theorem State.reported_links (l : Link) (p : State × Bool) :
    ∃ rla rlb, State.reported l p = { p.1 with rla, rlb } := by
  unfold State.reported State.popReport State.putReceiver
  split
  · exact ⟨_, _, rfl⟩
  · cases l <;> exact ⟨_, _, rfl⟩

/-- A change of a record reaches the table alone. -/
theorem State.TableOnly.setPresence (h : s.TableOnly t) (i : Nat) (p : Presence) : s.TableOnly (t.setPresence i p) :=
  ⟨by simpa using h.pins, by simpa using h.msu, by simpa using h.chu, by simpa using h.lines, by simpa using h.dsu,
    by simpa using h.rla, by simpa using h.rlb, by simpa using h.aru, by simpa using h.clu, by simpa using h.period,
    by simpa using h.tick⟩

end

end Sys2Proof.Machine
end


section
namespace Sys2Proof.Machine
open Sys2Proof

/-! ### The REPORT_TAKEN obligation -/

section
variable {s s₁ t : State} {l : Link} {rep : Report} {rest : List Report} {i n zone : Nat} {r r₁ : Record} {m : Message}

/-- A REGISTER makes presence HERE and releases every held slot (R139). -/
theorem State.takeRegister_eq (hr : s.record? i = some r) : s.takeRegister i r zone =
    r.held.foldl State.releaseSlot (s.putRecord i { r with presence := .here zone, held := [] }) := by
  rw [State.takeRegister, State.updateRecord_eq hr]

theorem State.setPresence_eq (hr : s.record? i = some r) (p : Presence) :
    s.setPresence i p = s.putRecord i { r with presence := p } := State.updateRecord_eq hr _

/-- The settlement that an ACK makes, with its effect on the slot, the owner and the link (R41, R138). -/
theorem State.reported_outcome (hq : (s.receiver l).fifo = rep :: rest) (hm : s.message? n = some m)
    (hp : m.place ≠ .sending) (ht : s.touch false m.owner = some s₁) (hr₁ : s₁.record? m.owner = some r₁) :
    ∃ u, State.reported l (((s₁.setPresence m.owner (.here zone)).settle .delivered n).freeOwner false m.owner
        (.report l)) = u ∧
      s.SlotFreed u n m ∧ (∀ j, j ≠ m.owner → u.record? j = s₁.record? j) ∧
      (r₁.state ≠ .retiring ∨ r₁.live.erase n ≠ [] →
        u.record? m.owner = some (({ r₁ with presence := .here zone } : Record).settled .delivered n m s.pdu.period) ∧
        u.receiver l = (s.receiver l).popped rest ∧ u.pdu = s₁.pdu) ∧
      (r₁.state = .retiring → r₁.live.erase n = [] →
        (s₁.pdu.waiters = [] → s₁.pdu.extract.length < 64 →
          u.record? m.owner = none ∧ u.receiver l = (s.receiver l).popped rest) ∧
        ((s₁.pdu.waiters ≠ [] ∨ 64 ≤ s₁.pdu.extract.length) →
          u.receiver l = s.receiver l ∧ u.pdu.waiters = s₁.pdu.waiters ++ [.closing m.owner (.report l)])) := by
  refine ⟨_, rfl, ?_⟩
  have htable := (State.touch_tableOnly ht).setPresence m.owner (.here zone)
  have hothers : ∀ j, j ≠ m.owner → (s₁.setPresence m.owner (.here zone)).record? j = s₁.record? j := fun j hj =>
    State.record?_updateRecord_other _ _ hj
  have hpresent : (s₁.setPresence m.owner (.here zone)).record? m.owner = some { r₁ with presence := .here zone } := by
    rw [State.setPresence_eq hr₁, State.record?_putRecord_same]
  have hbase : (s₁.setPresence m.owner (.here zone)).needsTouch { r₁ with presence := .here zone } = false :=
    (State.needsTouch_congr (r := r₁) (State.setPresence_pdu ..) rfl).trans (State.touch_needs ht hr₁)
  obtain ⟨howner, hneeds⟩ := State.settle_owner .delivered ((htable.message? n).trans hm) hpresent hbase
  have hsettled := State.settle_slotSettled .delivered htable hothers hm hp
  have hpdu : ((s₁.setPresence m.owner (.here zone)).settle .delivered n).pdu = s₁.pdu := by simp
  have hperiod : ((s₁.setPresence m.owner (.here zone)).settle .delivered n).pdu.period = s.pdu.period := by
    rw [State.settle_pdu, htable.period]
  generalize (s₁.setPresence m.owner (.here zone)).settle .delivered n = w at *
  have hlink := State.receiver_congr hsettled.rla hsettled.rlb l
  obtain ⟨rla, rlb, hlinks⟩ := State.reported_links l (w.freeOwner false m.owner (.report l))
  have hp := hsettled.freeOwner false (.report l)
  refine ⟨?_, ?_, fun hstays => ?_, fun hstate hlive => ⟨fun hwaiters hextract => ?_, fun hroom => ?_⟩⟩
  · rw [hlinks]; exact hp.toSlotFreed.congr_right ⟨_, rfl⟩ rfl rfl
  · rw [hlinks]; exact hp.records
  · rw [State.freeOwner_settled_stays _ howner hstays]
    exact ⟨by rw [← hperiod, ← howner]; exact State.record?_popReport ..,
      State.receiver_popReport hq hlink, by simp [State.reported, hpdu]⟩
  · obtain ⟨t, hfree, hF⟩ := State.freeOwner_settled_freed (.report l) howner hneeds hstate hlive
      (by rw [hpdu]; exact hwaiters) (by rw [hpdu]; exact hextract)
    rw [hfree]
    refine ⟨?_, State.receiver_popReport hq ((State.receiver_congr hF.rla hF.rlb l).trans hlink)⟩
    exact (State.record?_popReport ..).trans ((congrFun hF.record m.owner).trans (Function.update_self ..))
  · rw [State.freeOwner_settled_waits _ howner hneeds hstate hlive (by rw [hpdu]; exact hroom)]
    exact ⟨hlink, by rw [← hpdu]; rfl⟩

end

/-- Settles O53: a REGISTER by `State.foldl_releaseSlot`, and an ACK that settles its slot by
`State.reported_outcome`. -/
theorem reportTaken : Obligations.ReportTaken := by
  refine ⟨fun l s h => exec_reportTaken_idle h, ?_⟩
  intro l s rep rest popped hq hw hpopped
  obtain rfl : popped = (s.receiver l).popped rest := hpopped
  rw [exec_reportTaken_takes hq hw]
  refine ⟨fun h => ?_, fun i r hready hf hr hk => ⟨?_, ?_, ?_⟩⟩
  · rw [State.takeReport_ignores hq h, State.popReport_eq hq rfl]
  · rintro address zone rfl
    rw [State.takeReport_leave hready hr hk hq hf, State.setPresence_eq hr, State.popReport_eq hq (by cases l <;> rfl)]
  · rintro address zone rfl hnd
    refine ⟨_, congrArg (Host.Outcome.next ∘ State.afterTraffic) (State.takeReport_register hready hr hk hq hf), ?_⟩
    rw [State.takeRegister_eq hr]
    obtain ⟨hmessage, hdsu, haru⟩ := State.foldl_releaseSlot
      (s := s.putRecord i { r with presence := .here zone, held := [] }) hnd
    obtain ⟨hstu, hpdu, hclu, hlines, hchu, hrla, hrlb⟩ := State.foldl_releaseSlot_frame
      (s.putRecord i { r with presence := .here zone, held := [] }) r.held
    generalize r.held.foldl State.releaseSlot (s.putRecord i { r with presence := .here zone, held := [] }) = w at *
    have hrec : w.record? = (s.putRecord i { r with presence := .here zone, held := [] }).record? :=
      State.record?_eq (by rw [hstu])
    simp only [State.record?_popReport, State.message?_popReport, State.popReport_dsu, State.popReport_aru,
      State.popReport_pdu, State.popReport_clu, State.popReport_lines, State.popReport_chu, hrec, hmessage]
    refine ⟨State.record?_putRecord_same .., fun j hj => State.record?_putRecord_other _ _ hj, fun n hn m hm => ?_,
      fun n hn => if_neg hn, hdsu, haru, State.receiver_popReport hq (State.receiver_congr hrla hrlb l), hpdu, hclu,
      hlines, hchu⟩
    rw [if_pos hn, State.message?_putRecord, hm]; rfl
  · rintro address tag zone rfl
    have htake := State.takeReport_ack hready hr hk hq hf
    refine ⟨fun hnone => ?_, ?_⟩
    · rw [htake, State.takeAck_unmatched (State.ackedSlot_none hnone), State.setPresence_eq hr,
        State.popReport_eq hq (by cases l <;> rfl)]
    rintro n m hn hm htag haired rfl halone
    have hacked := State.ackedSlot_some hn hm htag haired halone
    refine ⟨fun hp => ?_, fun hp ht => ?_, fun s₁ r₁ hp ht hr₁ => ?_⟩
    · refine ⟨_, congrArg (Host.Outcome.next ∘ State.afterTraffic) (htake.trans (State.takeAck_marks hacked hp)), ?_⟩
      rw [State.setPresence_eq hr]
      refine ⟨by simp, by simp [hm], fun k hk => by simp [hk],
        State.receiver_popReport hq (State.receiver_congr (by simp) (by simp) l), by simp, by simp, by simp, by simp⟩
    · rw [htake, State.takeAck_waits hacked hp ht]; rfl
    · obtain ⟨u, hu, hfreed, hrecords, hstays, hleaves⟩ :=
        State.reported_outcome (zone := zone) hq hm hp ht hr₁
      refine ⟨u, ?_, hfreed.gone, hfreed.others, hrecords, hfreed.queues, hfreed.dsu, hfreed.aru, hstays, hleaves⟩
      rw [htake, State.takeAck_settles hacked hp ht, hu]

end Sys2Proof.Machine
end


section
namespace Sys2Proof.Machine
open Sys2Proof

/-! ## Acceptance -/

/-! ### The order of the timed list -/

/-- A slot joins a timed list in the order of the deadlines (R142). -/
theorem insertByDeadline_joins {f g : Nat → Tick} {n : Nat} {d : Tick} {l : List Nat} (h : ∀ k ∈ l, g k = f k) :
    joinsInOrder f n d l (insertByDeadline g n d l) := by
  induction l with
  | nil => exact ⟨[], [], rfl, rfl, by simp, by simp⟩
  | cons x l ih =>
    have hx := h x (by simp)
    unfold insertByDeadline
    by_cases hle : (f x - d).toInt ≤ 0
    · obtain ⟨front, back, hold, hnew, hbefore, hafter⟩ := ih fun k hk => h k (by simp [hk])
      rw [if_pos (by simpa [notAfter, hx] using hle)]
      refine ⟨x :: front, back, by simp [hold], by simp [hnew], fun k hk => ?_, hafter⟩
      rcases List.mem_cons.mp hk with rfl | hk
      · exact hle
      · exact hbefore k hk
    · rw [if_neg (by simpa [notAfter, hx] using hle)]
      refine ⟨[], x :: l, rfl, rfl, by simp, fun k hk => ?_⟩
      cases Option.some_inj.mp hk
      exact not_le.mp hle

section
variable {s s₁ t : State} {n i c oldest : Nat} {m : Message} {r r' : Record} {free : FreeList}

theorem State.deadlineOf_congr {k : Nat} (h : t.message? k = s.message? k) : t.deadlineOf k = s.deadlineOf k := by
  simp only [State.deadlineOf, h]

/-- A held slot joins the timed list by the hold deadline (R142, R144). -/
theorem State.hold_aru (s : State) (n i : Nat) : (s.hold n i).aru = { s.aru with
    timed := insertByDeadline s.deadlineOf n (s.deadlineIn (s.aru.hold * 600)) s.aru.timed } := by
  have hsame : State.deadlineOf (s.updateRecord i fun r => { r with held := r.held ++ [n] }) = s.deadlineOf :=
    funext fun k => State.deadlineOf_congr (State.message?_updateRecord ..)
  simp [State.hold, State.placeTimed, hsame, Config.minuteTicks]

theorem State.hold_lowWater (s : State) (n i : Nat) : (s.hold n i).msu.lowWater = s.msu.lowWater := by
  have hmessage : ∀ (u : State) (f : Message → Message), (u.updateMessage n f).msu.lowWater = u.msu.lowWater := by
    intro u f; unfold State.updateMessage; split <;> rfl
  simp [State.hold, State.placeTimed, hmessage]

/-! ### The eviction -/

theorem Record.settle_abandoned (r : Record) (m : Message) (period : Nat) : r.settle .abandoned m period =
    { r with
      pending := r.pending - m.charge
      used := if m.allowanceUsed = some period then r.used - 1 else r.used } := by
  simp only [Record.settle, Record.returnPage]
  split <;> rfl

/-- An eviction reaches no slot but the oldest held one, and no record but its own (R146). -/
theorem State.evictOldest_keeps (hr : s.record? i = some r) (hn : n ∉ r.held)
    (howned : ∀ k ∈ r.held, ∀ m, s.message? k = some m → m.owner = i) :
    (s.evictOldest i).slot n = s.slot n ∧ (∀ j, j ≠ i → (s.evictOldest i).record? j = s.record? j) ∧
      (s.evictOldest i).stu.sameFrame s.stu ∧ (s.evictOldest i).aru.hold = s.aru.hold := by
  by_cases hlen : r.held.length < 4
  · rw [State.evictOldest_room hr hlen]
    exact ⟨rfl, fun _ _ => rfl, .refl _, rfl⟩
  · obtain ⟨oldest, rest, hheld⟩ : ∃ oldest rest, r.held = oldest :: rest :=
      List.exists_cons_of_ne_nil (by rintro h; simp [h] at hlen)
    have hrest : 3 ≤ rest.length := by rw [hheld, List.length_cons] at hlen; omega
    rw [State.evictOldest_full hr hheld hrest]
    refine ⟨State.slot_settle_other _ _ (by rintro rfl; simp [hheld] at hn), fun j hj => ?_, State.settle_frame ..,
      State.settle_hold ..⟩
    cases hm : s.message? oldest with
    | none => rw [State.settle_free hm]
    | some m => exact State.record?_settle_other hm (by rwa [howned oldest (by simp [hheld]) m hm])

/-! ### The slot given out -/

/-- `t` is `s` with the message `m` in slot `n`, its reuse count as given, and `s₁` as the touch-sweep left the records
but the owner's (R93, R94). -/
structure State.Accepted (s s₁ t : State) (n i reuse : Nat) (m : Message) : Prop where
  reuse : (t.slot n).reuse = reuse
  message : t.message? n = some m
  records : ∀ j, j ≠ i → t.record? j = s₁.record? j
  pdu : t.pdu = s₁.pdu
  lines : t.lines = s.lines
  chu : t.chu = s.chu
  rla : t.rla = s.rla
  rlb : t.rlb = s.rlb
  pins : t.pins = s.pins
  numbers : t.stu.numberIndex = s.stu.numberIndex
  addresses : t.stu.addressIndex = s.stu.addressIndex
  freeRecords : t.stu.free = s.stu.free

/-- `a` is `s` with a slot given out to record `i`, now `r`, and not yet in a place (R34, R62). -/
structure State.Allocated (s s₁ a : State) (n i reuse : Nat) (m : Message) (free : FreeList) (r : Record) : Prop
    extends s.Accepted s₁ a n i reuse m where
  record : a.record? i = some r
  others : ∀ k, k ≠ n → a.message? k = s.message? k
  free : a.msu.free = free
  freeCount : a.msu.freeCount = s.msu.freeCount - 1
  lowWater : a.msu.lowWater = if s.msu.freeCount = 65 then true else s.msu.lowWater
  notices : s.clu.notices.length < 32 → a.clu.notices =
    s.clu.notices ++ if s.msu.freeCount = 65 then [⟨.storeLow 64, s.pdu.tick⟩] else []
  dsu : a.dsu = s.dsu
  aru : a.aru = s.aru

theorem State.lowerFree_notices (h : s.clu.notices.length < 32) : s.lowerFree.clu.notices =
    s.clu.notices ++ if s.msu.freeCount = 65 then [⟨.storeLow 64, s.pdu.tick⟩] else [] := by
  unfold State.lowerFree
  by_cases hcount : s.msu.freeCount = Config.lowWater + 1
  · have hcount' : s.msu.freeCount = 65 := hcount
    rw [if_pos hcount, if_pos hcount', hcount']
    exact State.raise_notices h
  · have hcount' : s.msu.freeCount ≠ 65 := hcount
    rw [if_neg hcount, if_neg hcount', List.append_nil]

variable {src : Source} {p : Priority} {body : List Byte}

/-- The allocation that leaves 64 free slots begins low water (R36). -/
theorem State.allocate_lowWater : (s.allocate n free i r src p body c).msu.lowWater =
    if s.msu.freeCount = 65 then true else s.msu.lowWater :=
  State.lowerFree_lowWater { s with msu := { s.msu with free } }

/-- The allocation that leaves 64 free slots is noticed (R36). -/
theorem State.allocate_notices (h : s.clu.notices.length < 32) : (s.allocate n free i r src p body c).clu.notices =
    s.clu.notices ++ if s.msu.freeCount = 65 then [⟨.storeLow 64, s.pdu.tick⟩] else [] :=
  State.lowerFree_notices (s := { s with msu := { s.msu with free } }) h

/-- The record of an accepted message: its charge reserved, the slot in its live list, its next tag (R35, R62). -/
def Record.accepted (r : Record) (n c tag : Nat) : Record :=
  { r with
    pending := r.pending + c
    used := if r.used < r.allowance then r.used + 1 else r.used
    live := r.live ++ [n]
    nextTag := (tag + 1) % 128 }

/-- The slot that an acceptance gives out, from the state before its touch-sweep. -/
theorem State.allocate_allocated (ht : s.touch false i = some s₁) :
    s.Allocated s₁ (s₁.allocate n free i r src p body c) n i (((s.slot n).reuse + 1) % 32)
      (newMessage i r (chooseTag (s.liveTags r) 17 r.nextTag) src p body c s.pdu.period) free
      (r.accepted n c (chooseTag (s.liveTags r) 17 r.nextTag)) := by
  have htable := State.touch_tableOnly ht
  obtain ⟨-, -, -, -, -, -, -, -, -, -, -, hstu, -⟩ := State.touch_frame ht
  obtain ⟨hnumbers, haddresses, hfree, -⟩ := Stu.of_records hstu
  obtain ⟨anumbers, aaddresses, afree⟩ := State.allocate_indexes (s := s₁) (n := n) (free := free) (i := i) (r := r)
    (src := src) (p := p) (body := body) (c := c)
  obtain ⟨mfree, mcount⟩ := State.allocate_free (s := s₁) (n := n) (free := free) (i := i) (r := r)
    (src := src) (p := p) (body := body) (c := c)
  have htags : s₁.liveTags r = s.liveTags r := by simp only [State.liveTags, htable.message?]
  have hslot : s₁.slot n = s.slot n := State.slot_congr (by rw [htable.msu]) n
  have hgiven := State.slot_allocate_same (s := s₁) (n := n) (free := free) (i := i) (r := r) (src := src) (p := p)
    (body := body) (c := c)
  rw [htags, hslot, htable.period] at hgiven
  exact
    { reuse := by rw [hgiven]
      message := by rw [State.message?, hgiven]
      records := fun j hj => State.record?_allocate_other hj
      pdu := State.allocate_pdu ..
      lines := (State.allocate_lines ..).trans htable.lines
      chu := (State.allocate_chu ..).trans htable.chu
      rla := (State.allocate_rla ..).trans htable.rla
      rlb := (State.allocate_rlb ..).trans htable.rlb
      pins := (State.allocate_pins ..).trans htable.pins
      numbers := anumbers.trans hnumbers
      addresses := aaddresses.trans haddresses
      freeRecords := afree.trans hfree
      record := by
        rw [State.record?_allocate_same, htags]
        simp [Record.accepted, Record.reserve, Record.withinAllowance]
      others := fun k hk => by
        rw [State.message?, State.slot_allocate_other hk]; exact htable.message? k
      free := mfree
      freeCount := by rw [mcount, htable.msu]
      lowWater := by rw [State.allocate_lowWater, htable.msu]
      notices := fun h => by rw [State.allocate_notices (by rwa [htable.clu]), htable.clu, htable.msu, htable.tick]
      dsu := (State.allocate_dsu ..).trans htable.dsu
      aru := (State.allocate_aru ..).trans htable.aru }

/-! ### Placing the slot -/

variable {reuse : Nat}

/-- The owner's oldest held slot may be evicted (R146). -/
theorem State.Accepted.evictOldest (h : s.Accepted s₁ t n i reuse m) (hr : t.record? i = some r) (hn : n ∉ r.held)
    (howned : ∀ k ∈ r.held, ∀ m, t.message? k = some m → m.owner = i) :
    s.Accepted s₁ (t.evictOldest i) n i reuse m := by
  obtain ⟨hslot, hrecords, ⟨-, -, hfree, -, hnumbers, haddresses, -⟩, -⟩ := State.evictOldest_keeps hr hn howned
  exact
    { reuse := by rw [hslot]; exact h.reuse
      message := by rw [State.message?, hslot]; exact h.message
      records := fun j hj => (hrecords j hj).trans (h.records j hj)
      pdu := (State.evictOldest_pdu ..).trans h.pdu
      lines := (State.evictOldest_lines ..).trans h.lines
      chu := (State.evictOldest_chu ..).trans h.chu
      rla := (State.evictOldest_rla ..).trans h.rla
      rlb := (State.evictOldest_rlb ..).trans h.rlb
      pins := (State.evictOldest_pins ..).trans h.pins
      numbers := hnumbers.trans h.numbers
      addresses := haddresses.trans h.addresses
      freeRecords := hfree.trans h.freeRecords }

/-- The slot becomes HELD (R146). -/
theorem State.Accepted.hold (h : s.Accepted s₁ t n i reuse m) :
    s.Accepted s₁ (t.hold n i) n i reuse { m with place := .held (t.deadlineIn (t.aru.hold * 600)) } := by
  obtain ⟨⟨-, -, hfree, -, hnumbers, haddresses, -⟩, -, -, -, hreuse⟩ := t.hold_frame n i
  exact
    { reuse := (hreuse n).trans h.reuse
      message := by rw [State.message?_hold_same, h.message]; rfl
      records := fun j hj => (State.record?_hold_other _ _ hj).trans (h.records j hj)
      pdu := (State.hold_pdu ..).trans h.pdu
      lines := (State.hold_lines ..).trans h.lines
      chu := (State.hold_chu ..).trans h.chu
      rla := (State.hold_rla ..).trans h.rla
      rlb := (State.hold_rlb ..).trans h.rlb
      pins := (State.hold_pins ..).trans h.pins
      numbers := hnumbers.trans h.numbers
      addresses := haddresses.trans h.addresses
      freeRecords := hfree.trans h.freeRecords }

/-- A slot just given out is parked after the eviction that a full held list asks for (R94, R146). -/
theorem State.park_unplaced (hm : s.message? n = some m) (hp : m.place = .queued) (hrel : m.released = false)
    (hn : ∀ q, n ∉ s.dsu.queues.get q) : s.park n = (s.evictOldest m.owner).hold n m.owner := by
  rcases State.park_cases hm with ⟨hr, -⟩ | ⟨-, h⟩
  · rw [hrel] at hr; cases hr
  · rw [h, hp]
    simp only [State.takeOut, Queues.erase_not_mem hn]

end

end Sys2Proof.Machine
end


section
namespace Sys2Proof.Machine
open Sys2Proof

/-! ### The acceptance obligation -/

section
variable {s s₁ a : State} {n i c reuse oldest tag : Nat} {m x : Message} {r : Record} {free : FreeList}
  {rest : List Nat}

/-- An acceptance that passes finds a free slot (R37). -/
theorem State.judge_pass_free {sub : Submission} (h : s.judge sub = .pass i c) : 0 < s.msu.freeCount := by
  unfold State.judge at h
  split at h
  next => cases h
  next =>
    split at h
    next => cases h
    next j _ =>
      split at h
      next => cases h
      next x _ =>
        split_ifs at h with h1 h2 h3 h4
        simp only [Bool.not_eq_false, State.storeRoom, Bool.and_eq_true, decide_eq_true_eq] at h4
        obtain ⟨hpos, -⟩ := h4
        exact hpos

/-- An acceptance that passes, and whose touch-sweep is made, is made (R93, R94). -/
theorem State.accept_made {w : Waiter} {src : Source} {sub : Submission} (hj : s.judge sub = .pass i c)
    (ht : s.touch false i = some s₁) (hr : s₁.record? i = some r) (hf : s.msu.free.take = some (n, free)) :
    s.accept false w src sub =
      ((s₁.allocate n free i r src sub.priority sub.body c).placeAccepted n sub.priority r.away,
        .made n i c r.away) := by
  have hf₁ : s₁.msu.free.take = some (n, free) := by rw [(State.touch_tableOnly ht).msu, hf]
  simp [State.accept, hj, ht, hr, hf₁]

variable (h : s.Allocated s₁ a n i reuse m free (r.accepted n c tag))
include h

/-- A message parked with room in the held list of its owner (R146). -/
theorem State.Allocated.hold_room :
    (a.hold n i).record? i = some { r.accepted n c tag with held := r.held ++ [n] } ∧
    (∀ k, k ≠ n → (a.hold n i).message? k = s.message? k) ∧
    (a.hold n i).msu.free = free ∧ (a.hold n i).msu.freeCount = s.msu.freeCount - 1 ∧ (a.hold n i).dsu = s.dsu ∧
    (n ∉ s.aru.timed → joinsInOrder s.deadlineOf n (a.deadlineIn (a.aru.hold * 600)) s.aru.timed
      (a.hold n i).aru.timed) := by
  obtain ⟨-, hfree, hcount, -, -⟩ := a.hold_frame n i
  refine ⟨by rw [State.record?_hold_owner, h.record]; rfl,
    fun k hk => (State.message?_hold_other _ _ hk).trans (h.others k hk), hfree.trans h.free,
    hcount.trans h.freeCount, (State.hold_dsu ..).trans h.dsu, fun hn => ?_⟩
  rw [State.hold_aru, ← h.aru]
  exact insertByDeadline_joins fun k hk =>
    State.deadlineOf_congr (h.others k (by rintro rfl; rw [h.aru] at hk; exact hn hk))

/-- A message parked after the eviction of the oldest of the slots held (R146). -/
theorem State.Allocated.hold_evicted (hheld : r.held = oldest :: rest) (hx : s.message? oldest = some x)
    (hown : x.owner = i) (hne : oldest ≠ n) (hpos : 0 < s.msu.freeCount) (hperiod : a.pdu.period = s.pdu.period)
    (htick : a.pdu.tick = s.pdu.tick) {t : State} (ht : (a.settle .abandoned oldest).hold n i = t) :
    t.message? oldest = none ∧
    t.record? i = some { (r.accepted n c tag) with
      pending := r.pending + c - x.charge
      used := if x.allowanceUsed = some s.pdu.period then (r.accepted n c tag).used - 1 else (r.accepted n c tag).used
      live := (r.live ++ [n]).erase oldest
      held := rest ++ [n] } ∧
    (∀ k, k ≠ n → k ≠ oldest → t.message? k = s.message? k) ∧
    t.msu.free.toList = oldest :: free.toList ∧ t.msu.freeCount = s.msu.freeCount ∧
    t.msu.lowWater = (if s.msu.freeCount = 65 then false else s.msu.lowWater) ∧
    (s.clu.notices.length < 31 → t.clu.notices = s.clu.notices ++
      if s.msu.freeCount = 65 then [⟨.storeLow 64, s.pdu.tick⟩, ⟨.storeRecovered 65, s.pdu.tick⟩] else []) ∧
    (∀ d, x.place = .held d → s.aru.timed.Nodup → n ∉ s.aru.timed → t.dsu = s.dsu ∧
      joinsInOrder s.deadlineOf n (a.deadlineIn (a.aru.hold * 600)) (s.aru.timed.erase oldest) t.aru.timed) := by
  subst ht hown
  have hxa : a.message? oldest = some x := (h.others oldest hne).trans hx
  obtain ⟨hfree, hcount, -⟩ := State.settle_free_list (e := .abandoned) hxa
  obtain ⟨-, tfree, tcount, -, -⟩ := (a.settle .abandoned oldest).hold_frame n x.owner
  obtain ⟨hdsu, haru⟩ := State.settle_places (e := .abandoned) hxa
  have hothers : ∀ k, k ≠ n → k ≠ oldest → (a.settle .abandoned oldest).message? k = s.message? k := fun k hk ho =>
    (State.message?_settle_other _ _ ho).trans (h.others k hk)
  refine ⟨?_, ?_, fun k hk ho => (State.message?_hold_other _ _ hk).trans (hothers k hk ho), ?_, ?_, ?_,
    fun hnotices => ?_, fun d hd hnd hn => ⟨?_, ?_⟩⟩
  · rw [State.message?_hold_other _ _ hne]; exact State.message?_settle_same ..
  · rw [State.record?_hold_owner, State.record?_settle_owner hxa h.record, hperiod]
    simp [Record.settle_abandoned, Record.accepted, hheld]
  · rw [tfree, hfree, h.free]; rfl
  · rw [tcount, hcount, h.freeCount]; omega
  · rw [State.hold_lowWater, State.settle_lowWater hxa, h.freeCount, h.lowWater, Config.lowWater]
    by_cases h65 : s.msu.freeCount = 65
    · simp [h65]
    · rw [if_neg h65, if_neg h65, if_neg (by omega)]
  · have hlength : a.clu.notices.length < 32 := by
      rw [h.notices (by omega)]; split <;> simp <;> omega
    rw [State.hold_clu, State.settle_notices .abandoned hxa hlength, h.notices (by omega), h.freeCount, htick]
    by_cases h65 : s.msu.freeCount = 65
    · simp [h65]
    · rw [if_neg h65, if_neg h65, if_neg (by omega)]; simp
  · rw [State.hold_dsu, hdsu, hd]; exact h.dsu
  · rw [State.hold_aru, haru, hd]
    simp only [State.takeOut, h.aru, State.deadlineIn, State.settle_pdu]
    refine insertByDeadline_joins fun k hk => State.deadlineOf_congr (hothers k ?_ ?_)
    · rintro rfl; exact hn (List.mem_of_mem_erase hk)
    · rintro rfl; exact hnd.not_mem_erase hk

end

/-- Settles O40: the slot given out is `State.allocate_allocated`, and its place a queue, the held list with room
(`State.Allocated.hold_room`), or the held list after an eviction (`State.Allocated.hold_evicted`). -/
theorem acceptanceEffect : Obligations.AcceptanceEffect := by
  intro s w src sub
  refine ⟨fun why figures hj => by simp [State.accept, hj], fun i c hj ht => by simp [State.accept, hj, ht]; rfl, ?_⟩
  rintro i c s₁ r n free tag reuse held hj ht hr hf hqueues hn howned rfl rfl hheld
  obtain rfl : held = r.away := hheld
  have ha := State.allocate_allocated (n := n) (free := free) (r := r) (src := src) (p := sub.priority)
    (body := sub.body) (c := c) ht
  have htable := State.touch_tableOnly ht
  refine ⟨_, State.accept_made hj ht hr hf, ?_⟩
  generalize s₁.allocate n free i r src sub.priority sub.body c = a at *
  cases haway : r.away with
  | false =>
    have hqueue : a.placeAccepted n sub.priority false = a.enqueue sub.priority.queue n := rfl
    simp only [hqueue, State.message?_enqueue, State.record?_enqueue]
    refine ⟨ha.reuse, ⟨.queued, ha.message.trans (by simp [newMessage, Record.withinAllowance]), rfl⟩, ha.records, ha.pdu,
      ha.lines, ha.chu, ha.rla, ha.rlb, ha.pins, ha.numbers, ha.addresses, ha.freeRecords,
      fun _ => ⟨ha.record, ha.others, ha.free, ha.freeCount, ?_, ha.aru⟩, fun he => absurd he (by simp),
      fun _ => ⟨ha.lowWater, ha.notices⟩, fun _ _ _ he => absurd he (by simp)⟩
    rw [← ha.dsu]; rfl
  | true =>
    have howned' : ∀ k ∈ r.held, ∀ m, a.message? k = some m → m.owner = i := fun k hk m hm =>
      howned k hk m (by rw [← ha.others k (by rintro rfl; exact hn hk), hm])
    have hparked := State.park_unplaced ha.message rfl rfl (by rw [ha.dsu]; exact hqueues)
    have hpark : a.placeAccepted n sub.priority true = (a.evictOldest i).hold n i := hparked
    have hperiod : a.pdu.period = s.pdu.period := by rw [ha.pdu, htable.period]
    have htick : a.pdu.tick = s.pdu.tick := by rw [ha.pdu, htable.tick]
    have hdeadline : a.deadlineIn (a.aru.hold * 600) = s.pdu.tick + BitVec.ofNat 32 (s.aru.hold * 600) := by
      rw [State.deadlineIn, htick, ha.aru]
    obtain ⟨-, -, -, hhold⟩ := State.evictOldest_keeps ha.record hn howned'
    have hacc := (ha.toAccepted.evictOldest ha.record hn howned').hold
    have hdeadline' : (a.evictOldest i).deadlineIn ((a.evictOldest i).aru.hold * 600) =
        s.pdu.tick + BitVec.ofNat 32 (s.aru.hold * 600) := by
      rw [hhold, ← hdeadline, State.deadlineIn, State.evictOldest_pdu, State.deadlineIn]
    rw [hdeadline'] at hacc
    rw [hpark]
    refine ⟨hacc.reuse, ⟨_, hacc.message.trans (by simp [newMessage, Record.withinAllowance]), rfl⟩, hacc.records,
      hacc.pdu, hacc.lines, hacc.chu, hacc.rla, hacc.rlb, hacc.pins, hacc.numbers, hacc.addresses, hacc.freeRecords,
      fun he => absurd he (by simp), fun _ hroom => ?_, fun hroom => ?_, fun oldest rest m _ hheld hlen hm => ?_⟩
    · rw [State.evictOldest_room ha.record hroom, ← hdeadline]
      exact ha.hold_room
    · rw [State.evictOldest_room ha.record (hroom.resolve_left (by simp)), State.hold_lowWater, State.hold_clu]
      exact ⟨ha.lowWater, ha.notices⟩
    · have hne : oldest ≠ n := by rintro rfl; simp [hheld] at hn
      rw [State.evictOldest_full ha.record hheld hlen.ge, ← hdeadline]
      obtain ⟨hgone, hrecord, hrest⟩ := ha.hold_evicted hheld hm (howned oldest (by simp [hheld]) m hm) hne
        (State.judge_pass_free hj) hperiod htick rfl
      exact ⟨hgone, fun used hused => by rw [hused]; exact hrecord, hrest⟩

end Sys2Proof.Machine
end


section
namespace Sys2Proof.Machine
open Sys2Proof

/-! ## Pricing and credit -/

/-- Sixteenths are rounded up to a whole unit (R57). -/
theorem TariffRow.characterPart_rounds_up (t : TariffRow) (n : Nat) :
    16 * t.characterPart n < (n - t.free) * t.rate + 16 ∧ (n - t.free) * t.rate ≤ 16 * t.characterPart n := by
  unfold TariffRow.characterPart
  omega

/-- Eighths are rounded half up (R59). -/
theorem round_eighths (x : Nat) : 8 * ((x + 4) / 8) ≤ x + 4 ∧ x + 4 < 8 * ((x + 4) / 8) + 8 := by omega

section
variable {r : Record} {c balance ceiling : Nat}

theorem Record.credit_prepaid (hp : r.plan = .prepaid balance) :
    (r.pending ≤ balance → (r.creditPasses c = true ↔ c ≤ balance - r.pending)) ∧
      r.creditRefusal = .noCredit ∧ r.available = balance - r.pending := by
  refine ⟨fun hpending => ?_, by simp only [Record.creditRefusal, hp], by simp only [Record.available, hp]⟩
  simp only [Record.creditPasses, hp, decide_eq_true_eq]
  omega

theorem Record.credit_account (hp : r.plan = .account ceiling) :
    (r.creditPasses c = true ↔ (ceiling = 0 ∨ r.charge + r.pending + c ≤ ceiling)) ∧
      r.creditRefusal = .overCeiling ∧
      r.available = (if ceiling < r.charge + r.pending then 0 else ceiling - (r.charge + r.pending)) := by
  refine ⟨by simp only [Record.creditPasses, hp, Bool.or_eq_true, decide_eq_true_eq],
    by simp only [Record.creditRefusal, hp], ?_⟩
  simp only [Record.available, hp]
  split <;> omega

end

/-- Settles O31: the roundings are `TariffRow.characterPart_rounds_up` and `round_eighths`, and the two plans
`Record.credit_prepaid` and `Record.credit_account`. -/
theorem pricingAndCredit : Obligations.PricingAndCredit := by
  refine ⟨⟨TariffRow.characterPart_rounds_up, fun t n => ⟨?_, rfl⟩, fun c sub => ⟨rfl, ?_⟩, fun _ _ _ _ _ => rfl,
    fun _ _ _ _ => rfl⟩, fun r c => ⟨fun _ => Record.credit_prepaid, fun _ => Record.credit_account⟩⟩
  · exact Nat.zero_add _
  · obtain ⟨hurgent, hurgent'⟩ := round_eighths (sub * c.mu)
    obtain ⟨hdeferred, hdeferred'⟩ := round_eighths (sub * c.md)
    exact ⟨hurgent, hurgent', hdeferred, hdeferred'⟩

/-! ## The settlement table -/

section
variable (r : Record) (m : Message) (period : Nat)

/-- A CANCELLED settlement of a slot that was sent makes the charge final without a delivery (R66). -/
theorem Record.settle_cancelled_aired (ha : m.aired = true) : r.settle .cancelled m period =
    ({ r with pending := r.pending - m.charge } : Record).chargeFinal m.charge := by
  simp only [Record.settle, ha, if_true]

/-- The outcomes that release the charge are all as an ABANDONED one (R67). -/
theorem Record.settle_releases {e : Ending} (he : e = .abandoned ∨ e = .flushed ∨ (e = .cancelled ∧ m.aired = false)) :
    r.settle e m period = { r with
      pending := r.pending - m.charge
      used := if m.allowanceUsed = some period then r.used - 1 else r.used } := by
  rw [← Record.settle_abandoned]
  rcases he with rfl | rfl | ⟨rfl, ha⟩
  · rfl
  · rfl
  · simp only [Record.settle, ha, Bool.false_eq_true, if_false]

end

/-- The two outcomes that make the charge final differ in the delivery alone (R65, R66). -/
theorem Record.settle_charges (r : Record) (m : Message) (period : Nat) {e : Ending}
    (he : e = .delivered ∨ (e = .cancelled ∧ m.aired = true)) :
    ∃ delivered chars, r.settle e m period =
      { ({ r with pending := r.pending - m.charge } : Record).chargeFinal m.charge with delivered, chars } := by
  rcases he with rfl | ⟨rfl, ha⟩
  · exact ⟨_, _, rfl⟩
  · exact ⟨_, _, Record.settle_cancelled_aired r m period ha⟩

/-- The period charge saturates, and the mark is set in the event that stops it (R68). -/
theorem Record.chargeFinal_charge (r : Record) (c : Nat) :
    (r.charge + c ≤ 16777215 → (r.chargeFinal c).charge = r.charge + c ∧ (r.chargeFinal c).saturated = r.saturated) ∧
    (16777215 < r.charge + c → (r.chargeFinal c).charge = 16777215 ∧ (r.chargeFinal c).saturated = true) := by
  refine ⟨fun h => ⟨min_eq_left h, ?_⟩, fun h => ⟨min_eq_right h.le, ?_⟩⟩
  · exact (congrArg (r.saturated || ·) (decide_eq_false (not_lt.mpr h))).trans (Bool.or_false _)
  · exact (congrArg (r.saturated || ·) (decide_eq_true h)).trans (Bool.or_true _)

/-- Settles O32: the rows that make the charge final by `Record.settle_charges`, and those that release it by
`Record.settle_releases`. -/
theorem settlementTable : Obligations.SettlementTable := by
  intro r m period
  refine ⟨fun e he => ?_, rfl, rfl, fun ha => ?_, fun e he => Record.settle_releases r m period he, fun e => ?_⟩
  · obtain ⟨delivered, chars, hsettle⟩ := Record.settle_charges r m period he
    obtain ⟨hfits, hsaturates⟩ :=
      Record.chargeFinal_charge { r with pending := r.pending - m.charge } m.charge
    rw [hsettle]
    refine ⟨rfl, fun balance hp => ?_, fun ceiling hp => ?_, hfits, hsaturates, rfl⟩ <;>
      simp only [Record.chargeFinal, hp]
  · rw [Record.settle_cancelled_aired r m period ha]
    exact ⟨rfl, rfl⟩
  · obtain ⟨_, _, _, _, _, _, hsettle⟩ := Record.settle_writes r e m period
    rw [hsettle]
    exact ⟨_, rfl, rfl, rfl, rfl, rfl, rfl, rfl, rfl, rfl, rfl, rfl, rfl, rfl, rfl⟩

/-! ## SET TARIFF and READ TARIFF -/

theorem nat2_toNat (w : BitVec 16) : nat2 w.toNat = bytes2 w := by rw [nat2, BitVec.ofNat_toNat, BitVec.setWidth_eq]

/-- The clamped indications of two values (R189). -/
theorem clampBits_pair (a b : Bool) : clampBits [a, b] = (if a then 1#8 else 0#8) ||| (if b then 2#8 else 0#8) := by
  revert a b; decide

/-- The clamped indications of a class row, whose base charge needs no clamping (R53, R189). -/
theorem clampBits_row (a b : Bool) :
    clampBits [false, a, b] = (if a then 2#8 else 0#8) ||| (if b then 4#8 else 0#8) := by
  revert a b; decide

theorem rowReply_clampRow (base rate : BitVec 16) (free : Byte) : rowReply (clampRow base free rate) free rate =
    bytes2 base ++ nat1 (min free.toNat 80) ++ nat2 (min rate.toNat 4095) ++
      [(if 80 < free.toNat then 2#8 else 0#8) ||| (if 4095 < rate.toNat then 4#8 else 0#8)] := by
  simp only [rowReply, clampRow, nat2_toNat, clampBits_row, ne_eq, min_eq_left_iff, not_le, decide_eq_true_eq]

/-- Which multipliers are out of their range (R53, R54). -/
theorem clampBits_multipliers (mu md : Nat) :
    clampBits [decide (max 8 (min mu 32) ≠ mu), decide (min md 8 ≠ md)] =
      (if mu < 8 ∨ 32 < mu then 1#8 else 0#8) ||| (if 8 < md then 2#8 else 0#8) := by
  have hmu : max 8 (min mu 32) ≠ mu ↔ mu < 8 ∨ 32 < mu := by omega
  have hmd : min md 8 ≠ md ↔ 8 < md := by omega
  simp only [clampBits_pair, hmu, hmd, decide_eq_true_eq]

section
variable {s t : State} {tag : Byte} {a : TariffArgs} {why : Result} {params : List Byte}

theorem exec_setTariff (hfull : s.responseFull = false) (ht : takeSetTariff a s = (t, .now why params)) :
    exec (.setTariff tag a) s = .next (t.respond ⟨0x30, tag, why, params⟩) :=
  congrArg Host.Outcome.next (State.start_now hfull ht)

theorem exec_readTariff (hfull : s.responseFull = false) (ht : takeReadTariff s = (t, .now why params)) :
    exec (.readTariff tag) s = .next (t.respond ⟨0x31, tag, why, params⟩) :=
  congrArg Host.Outcome.next (State.start_now hfull ht)

end

/-- Settles O30: the reply of a class row is `rowReply_clampRow`, that of the multipliers
`clampBits_multipliers`. -/
theorem tariffCommands : Obligations.TariffCommands := by
  intro tag s hfull
  refine ⟨fun base rate free row reply hrow hreply => ?_, fun mu md => ?_, fun selector rest => ?_, ?_⟩
  · obtain rfl : row = clampRow base free rate := hrow
    obtain rfl : reply = rowReply (clampRow base free rate) free rate :=
      hreply.trans (rowReply_clampRow base rate free).symm
    exact ⟨exec_setTariff hfull rfl, exec_setTariff hfull rfl, exec_setTariff hfull rfl⟩
  · rw [← clampBits_multipliers]
    exact exec_setTariff hfull rfl
  · exact exec_setTariff hfull rfl
  · rw [exec_readTariff hfull rfl]
    simp only [TariffRow.bytes, List.append_assoc]

end Sys2Proof.Machine
end


section
namespace Sys2Proof.Machine
open Sys2Proof

/-! ## EXPIRY -/

section
variable {s s₁ u : State} {n oldest : Nat} {rest tail : List Nat} {m mo : Message} {r r₁ : Record} {d : Tick}

/-! ### When an expiry is made -/

/-- The head of the timed list is due once the tick count has reached its deadline (R143). -/
theorem State.dueHead_cons (htimed : s.aru.timed = n :: rest) (hm : s.message? n = some m)
    (hp : m.place = .awaiting d ∨ m.place = .held d) :
    s.dueHead = if (d - s.pdu.tick).toInt ≤ 0 then some n else none := by
  have hdeadline : m.deadline = some d := by rcases hp with hp | hp <;> simp [Message.deadline, hp]
  simp [State.dueHead, htimed, hm, hdeadline, notAfter]

/-- The row does nothing with no expiry to make (R143, R148). -/
theorem exec_expiry_idle (h : s.dueHead = none ∨ s.expiryWaits = true) : exec .expiry s = .next s := by
  refine congrArg Host.Outcome.next (if_neg ?_)
  rcases h with h | h <;> simp [h]

theorem exec_expiry_due (hdue : s.dueHead = some n) (hw : s.expiryWaits = false) :
    exec .expiry s = .next (s.expire false).afterTraffic :=
  congrArg Host.Outcome.next (if_pos (by simp [hdue, hw]))

/-! ### What becomes of the slot that is due -/

/-- An AWAITING slot that expires is parked: it has no attempt left, or its owner is AWAY (R145). -/
def State.parksAtExpiry (s : State) (m : Message) (r : Record) : Prop := s.aru.aMax ≤ m.attempts ∨ r.presence = .away

theorem State.parksAtExpiry_iff : s.parksAtExpiry m r ↔ ¬ (m.attempts < s.aru.aMax ∧ r.presence ≠ .away) := by
  rw [State.parksAtExpiry, not_and_or, not_lt, not_not]

theorem Record.parkSettles_iff : r.parkSettles m = true ↔ m.released = true ∨ 4 ≤ r.held.length := by
  rw [Record.parkSettles, Bool.or_eq_true, decide_eq_true_iff]; rfl

section
variable (hdue : s.dueHead = some n) (hm : s.message? n = some m) (hr : s.record? m.owner = some r)
include hdue hm hr

theorem State.expire_retries (hp : m.place = .awaiting d) (h : ¬ s.parksAtExpiry m r) :
    s.expire false = (({ s with aru := { s.aru with timed := s.aru.timed.erase n } }).updateMessage n
      fun m => { m with place := .queued }).enqueue .retry n := by
  rw [State.parksAtExpiry_iff, not_not] at h
  simp only [State.expire, hdue, hm, hr, hp, if_pos h]

/-- A parking that settles no slot needs no room in the extract FIFO (R146). -/
theorem State.expire_parks (hp : m.place = .awaiting d) (h : s.parksAtExpiry m r) (hs : r.parkSettles m = false) :
    s.expire false = s.park n := by
  simp only [State.expire, hdue, hm, hr, hp, if_neg (State.parksAtExpiry_iff.mp h), hs, Bool.false_eq_true, if_false]

/-- The expiry waits where the touch-sweep before a settlement has no room (R147, R148). -/
theorem State.expire_waits
    (h : m.place = .held d ∨ (m.place = .awaiting d ∧ s.parksAtExpiry m r ∧ r.parkSettles m = true))
    (ht : s.touch false m.owner = none) : s.expire false = s.wait false .expiry := by
  rcases h with hp | ⟨hp, h, hs⟩
  · simp only [State.expire, hdue, hm, hr, hp, ht]
  · simp only [State.expire, hdue, hm, hr, hp, if_neg (State.parksAtExpiry_iff.mp h), hs, if_true, ht]

/-- A parking that settles a slot, after the touch-sweep of the owner (R146, R147). -/
theorem State.expire_parks_settling (hp : m.place = .awaiting d) (h : s.parksAtExpiry m r)
    (hs : r.parkSettles m = true) (ht : s.touch false m.owner = some s₁) :
    s.expire false = ((s₁.park n).freeOwner false m.owner .expiry).1 := by
  simp only [State.expire, hdue, hm, hr, hp, if_neg (State.parksAtExpiry_iff.mp h), hs, if_true, ht]

/-- A HELD slot, and a released one whose parking comes, is settled ABANDONED (R146, R147). -/
theorem State.expire_abandons
    (h : m.place = .held d ∨ (m.place = .awaiting d ∧ s.parksAtExpiry m r ∧ m.released = true))
    (ht : s.touch false m.owner = some s₁) :
    s.expire false = ((s₁.settle .abandoned n).freeOwner false m.owner .expiry).1 := by
  rcases h with hp | ⟨hp, h, hrel⟩
  · simp only [State.expire, hdue, hm, hr, hp, ht]
  · have hpark : s₁.park n = s₁.settle .abandoned n := by
      rcases State.park_cases (((State.touch_tableOnly ht).message? n).trans hm) with ⟨-, hpark⟩ | ⟨hno, -⟩
      · exact hpark
      · rw [hrel] at hno; cases hno
    rw [State.expire_parks_settling hdue hm hr hp h (Record.parkSettles_iff.mpr (.inl hrel)) ht, hpark]

end

/-! ### The settlement of a slot and the freeing of its owner -/

/-- A settlement after the touch-sweep that it needs (`s₁`): the owner keeps its record, or is freed, or waits for its
closing entry (R24, R41). -/
theorem State.settle_outcome (e : Ending) (holder : Holder) (hm : s.message? n = some m) (hp : m.place ≠ .sending)
    (ht : s.touch false m.owner = some s₁) (hr₁ : s₁.record? m.owner = some r₁)
    (hu : ((s₁.settle e n).freeOwner false m.owner holder).1 = u) :
    s.SlotSettled s₁ u n m ∧
      (r₁.state ≠ .retiring ∨ r₁.live.erase n ≠ [] →
        u.pdu = s₁.pdu ∧ u.record? m.owner = some (r₁.settled e n m s.pdu.period)) ∧
      (r₁.state = .retiring → r₁.live.erase n = [] →
        (s₁.pdu.waiters = [] → s₁.pdu.extract.length < 64 → u.record? m.owner = none) ∧
        (s₁.pdu.waiters ≠ [] ∨ 64 ≤ s₁.pdu.extract.length →
          u.pdu.waiters = s₁.pdu.waiters ++ [.closing m.owner holder])) := by
  subst hu
  have htable := State.touch_tableOnly ht
  have hpdu : (s₁.settle e n).pdu = s₁.pdu := State.settle_pdu ..
  have hperiod : (s₁.settle e n).pdu.period = s.pdu.period := by rw [hpdu, htable.period]
  obtain ⟨howner, hneeds⟩ := State.settle_owner e ((htable.message? n).trans hm) hr₁ (State.touch_needs ht hr₁)
  refine ⟨(State.settle_slotSettled e htable (fun _ _ => rfl) hm hp).freeOwner .., fun hstays => ?_,
    fun hstate hlive => ⟨fun hwaiters hextract => ?_, fun hroom => ?_⟩⟩
  · rw [State.freeOwner_settled_stays _ howner hstays]
    exact ⟨hpdu, by rw [← hperiod]; exact howner⟩
  · obtain ⟨t, hfree, hF⟩ := State.freeOwner_settled_freed holder howner hneeds hstate hlive
      (by rw [hpdu]; exact hwaiters) (by rw [hpdu]; exact hextract)
    rw [hfree, State.record?_countFreed, hF.record, Function.update_self]
  · rw [State.freeOwner_settled_waits _ howner hneeds hstate hlive (by rw [hpdu]; exact hroom), ← hpdu]
    rfl

theorem Queues.ext_get {p q : Queues} (h : ∀ k, p.get k = q.get k) : p = q := by
  cases p; cases q
  exact (Queues.mk.injEq ..).mpr ⟨h .urgent, h .normal, h .deferred, h .retry⟩

/-- A slot freed from the timed list leaves the Dispatch Unit as it was (R31, R41). -/
theorem State.SlotFreed.of_timed (h : s.SlotFreed u n m) (hp : m.place = .awaiting d ∨ m.place = .held d) :
    u.dsu = s.dsu ∧ u.aru = { s.aru with timed := s.aru.timed.erase n } := by
  have hplace : m.place ≠ .queued ∧ m.place ≠ .staged ∧ m.deadline ≠ none := by
    rcases hp with hp | hp <;> simp [Message.deadline, hp]
  obtain ⟨hqueued, hstaged, hdeadline⟩ := hplace
  have hqueues : u.dsu.queues = s.dsu.queues := Queues.ext_get fun q => (h.queues q).trans (if_neg hqueued)
  refine ⟨?_, by rw [h.aru, if_neg hdeadline]⟩
  rw [h.dsu, hqueues, if_neg hstaged]

/-! ### Parking a slot of the timed list -/

theorem State.takeOut_head (htimed : s.aru.timed = n :: rest) (hp : m.place = .awaiting d) :
    s.takeOut n m.place = { s with aru := { s.aru with timed := rest } } := by
  simp [hp, State.takeOut, htimed]

/-- A parking with room in the held list of the owner (R146). -/
theorem State.park_room (hm : s.message? n = some m) (hr : s.record? m.owner = some r) (hrel : m.released = false)
    (hlen : r.held.length < 4) : s.park n = (s.takeOut n m.place).hold n m.owner := by
  rcases State.park_cases hm with ⟨h, -⟩ | ⟨-, h⟩
  · rw [hrel] at h; cases h
  · rw [h, State.evictOldest_room ((State.record?_takeOut ..).trans hr) hlen]

/-- A parking with the held list of the owner full (R146). -/
theorem State.park_full (hm : s.message? n = some m) (hr : s.record? m.owner = some r) (hrel : m.released = false)
    (hheld : r.held = oldest :: tail) (hlen : 3 ≤ tail.length) :
    s.park n = ((s.takeOut n m.place).settle .abandoned oldest).hold n m.owner := by
  rcases State.park_cases hm with ⟨h, -⟩ | ⟨-, h⟩
  · rw [hrel] at h; cases h
  · rw [h, State.evictOldest_full ((State.record?_takeOut ..).trans hr) hheld hlen]

/-- `u` is `s` with slot `n`, of the timed list, parked and slot `oldest` settled to make room for it; `s₁` is as the
touch-sweep left the records but the owner's (R146). -/
structure State.ParkedEvicting (s s₁ u : State) (n oldest : Nat) (rest : List Nat) (m mo : Message) : Prop where
  gone : u.message? oldest = none
  parked : u.message? n = some { m with place := .held (s.deadlineIn (s.aru.hold * 600)) }
  others : ∀ k, k ≠ n → k ≠ oldest → u.message? k = s.message? k
  records : ∀ j, j ≠ m.owner → u.record? j = s₁.record? j
  free : u.msu.free.toList = oldest :: s.msu.free.toList
  freeCount : u.msu.freeCount = s.msu.freeCount + 1
  places : ∀ d, mo.place = .held d → rest.Nodup → u.dsu = s.dsu ∧
    joinsInOrder s.deadlineOf n (s.deadlineIn (s.aru.hold * 600)) (rest.erase oldest) u.aru.timed

/-- The freeing of the owner reaches no slot and no other record. -/
theorem State.ParkedEvicting.freeOwner (h : s.ParkedEvicting s₁ u n oldest rest m mo) (anew : Bool) (holder : Holder) :
    s.ParkedEvicting s₁ (u.freeOwner anew m.owner holder).1 n oldest rest m mo := by
  obtain ⟨hslots, hfree, hcount, -, -, -, hdsu, -, -, haru, -, -, hrec⟩ := u.freeOwner_frame anew m.owner holder
  exact
    { gone := (State.message?_congr hslots _).trans h.gone
      parked := (State.message?_congr hslots _).trans h.parked
      others := fun k hn ho => (State.message?_congr hslots k).trans (h.others k hn ho)
      records := fun j hj => (hrec j hj).trans (h.records j hj)
      free := by rw [hfree]; exact h.free
      freeCount := hcount.trans h.freeCount
      places := by rw [hdsu, haru]; exact h.places }

/-- The parking of a slot just taken out of the timed list, with the eviction it asks for (R146). -/
theorem State.hold_evicting {x : State} (hx : ({ s with aru := { s.aru with timed := rest } } : State).TableOnly x)
    (hm : s.message? n = some m) (hr : x.record? m.owner = some r) (hheld : r.held = oldest :: tail) (hne : oldest ≠ n)
    (hmo : s.message? oldest = some mo) (hown : mo.owner = m.owner) :
    s.ParkedEvicting x ((x.settle .abandoned oldest).hold n m.owner) n oldest rest m mo ∧
      ((x.settle .abandoned oldest).hold n m.owner).record? m.owner =
        some { r.settled .abandoned oldest mo s.pdu.period with held := tail ++ [n] } := by
  have hmox : x.message? oldest = some mo := (hx.message? oldest).trans hmo
  obtain ⟨hfree, hcount, -⟩ := State.settle_free_list (e := .abandoned) hmox
  obtain ⟨-, tfree, tcount, -, -⟩ := (x.settle .abandoned oldest).hold_frame n m.owner
  obtain ⟨hdsu, haru⟩ := State.settle_places (e := .abandoned) hmox
  have hdeadline : (x.settle .abandoned oldest).deadlineIn ((x.settle .abandoned oldest).aru.hold * 600) =
      s.deadlineIn (s.aru.hold * 600) := by
    simp only [State.deadlineIn, State.settle_pdu, State.settle_hold, hx.tick, hx.aru]
  have hothers : ∀ k, k ≠ oldest → (x.settle .abandoned oldest).message? k = s.message? k := fun k hk =>
    (State.message?_settle_other _ _ hk).trans (hx.message? k)
  refine ⟨⟨?_, ?_, fun k hk ho => (State.message?_hold_other _ _ hk).trans (hothers k ho), fun j hj => ?_, ?_, ?_,
    fun d hd hnd => ⟨?_, ?_⟩⟩, ?_⟩
  · rw [State.message?_hold_other _ _ hne]; exact State.message?_settle_same ..
  · rw [State.message?_hold_same, hothers n hne.symm, hm, ← hdeadline]; rfl
  · rw [State.record?_hold_other _ _ hj, State.record?_settle_other hmox (by rwa [hown])]
  · rw [tfree, hfree, hx.msu]; rfl
  · rw [tcount, hcount, hx.msu]
  · rw [State.hold_dsu, hdsu, hd]; exact hx.dsu
  · rw [State.hold_aru, hdeadline, haru, hd, State.takeOut, hx.aru]
    exact insertByDeadline_joins fun k hk =>
      State.deadlineOf_congr (hothers k (by rintro rfl; exact hnd.not_mem_erase hk))
  · rw [State.record?_hold_owner, State.record?_settle_fun hmox (by rwa [hown]), hown, Function.update_self, hx.period]
    simp [Record.settled, hheld]

/-- The parking of the head of the timed list after the touch-sweep of its owner (`s₁`), whose held list is full, and
the freeing that the eviction may begin (R24, R146). -/
theorem State.park_evicting (hst : s.TableOnly s₁) (htimed : s.aru.timed = n :: rest) (hm : s.message? n = some m)
    (hp : m.place = .awaiting d) (hrel : m.released = false) (hr₁ : s₁.record? m.owner = some r₁)
    (hheld : r₁.held = oldest :: tail) (hlen : 3 ≤ tail.length) (hne : oldest ≠ n)
    (hmo : s.message? oldest = some mo) (hown : mo.owner = m.owner)
    (hu : ((s₁.park n).freeOwner false m.owner .expiry).1 = u) :
    s.ParkedEvicting s₁ u n oldest rest m mo ∧
      (r₁.state ≠ .retiring ∨ r₁.live.erase oldest ≠ [] → u.pdu = s₁.pdu ∧ u.record? m.owner =
        some { r₁.settled .abandoned oldest mo s.pdu.period with held := tail ++ [n] }) := by
  have hx : ({ s with aru := { s.aru with timed := rest } } : State).TableOnly
      { s₁ with aru := { s₁.aru with timed := rest } } :=
    { hst with aru := by rw [hst.aru] }
  obtain ⟨hevicted, howner⟩ := State.hold_evicting hx hm hr₁ hheld hne hmo hown
  rw [State.park_full ((hst.message? n).trans hm) hr₁ hrel hheld hlen, State.takeOut_head (hst.aru ▸ htimed) hp] at hu
  subst hu
  refine ⟨{ hevicted.freeOwner false .expiry with }, fun hstays => ?_⟩
  rw [State.freeOwner_notDue false .expiry howner (by simpa [Record.settled] using hstays)]
  exact ⟨by simp, howner⟩

end

/-- Settles O54: the slot is retried; parked with room in the held list, by `State.hold_aru`; settled, by
`State.settle_outcome`; or parked after an eviction, by `State.park_evicting`. -/
theorem expiryOutcomes : Obligations.ExpiryOutcomes := by
  refine ⟨fun s h => exec_expiry_idle ?_, ?_⟩
  · rcases h with htimed | hw | ⟨n, rest, m, d, htimed, hm, hp, hd⟩
    · exact .inl (by simp [State.dueHead, htimed])
    · exact .inr hw
    · exact .inl ((State.dueHead_cons htimed hm hp).trans (if_neg (not_le.mpr hd)))
  intro s n rest m r d htimed hw hm hr hd
  have hdue : m.place = .awaiting d ∨ m.place = .held d → s.dueHead = some n := fun hp =>
    (State.dueHead_cons htimed hm hp).trans (if_pos hd)
  have hexec : ∀ {u}, s.dueHead = some n → s.expire false = u → exec .expiry s = .next u.afterTraffic := by
    rintro u hhead rfl
    exact exec_expiry_due hhead hw
  have herase : s.aru.timed.erase n = rest := by rw [htimed, List.erase_cons_head]
  refine ⟨fun hp hattempts hpresent => ?_, fun hp hparks hrel hlen => ?_, fun h ht => ?_, fun s₁ r₁ h ht hr₁ => ?_,
    fun s₁ r₁ oldest tail mo hp hparks hrel ht hr₁ hheld hlen hne hmo hown => ?_⟩
  · have hhead := hdue (.inl hp)
    have hretries : ¬ s.parksAtExpiry m r := State.parksAtExpiry_iff.not_left.mpr ⟨hattempts, hpresent⟩
    refine ⟨_, hexec hhead (State.expire_retries hhead hm hr hp hretries), ?_⟩
    rw [herase]
    refine ⟨?_, fun k hk => State.message?_updateMessage_other _ _ hk, by simp, ?_, by simp, by simp, by simp, by simp,
      by simp⟩
    · rw [State.message?_enqueue, State.message?_updateMessage_same]; exact congrArg _ hm
    · simp [State.enqueue, Queues.set, Queues.get]
  · have hhead := hdue (.inl hp)
    have hkeeps : r.parkSettles m = false := by
      rw [Bool.eq_false_iff, Ne, Record.parkSettles_iff, hrel]; simpa using hlen
    refine ⟨_, hexec hhead (State.expire_parks hhead hm hr hp hparks hkeeps), ?_⟩
    rw [State.park_room hm hr hrel hlen, State.takeOut_head htimed hp]
    refine ⟨?_, fun k hk => State.message?_hold_other _ _ hk, ?_, ?_, fun j hj => State.record?_hold_other _ _ hj,
      State.hold_dsu .., State.hold_pdu .., State.hold_clu ..⟩
    · rw [State.message?_hold_same]; exact congrArg _ hm
    · rw [State.hold_aru]; exact insertByDeadline_joins fun _ _ => rfl
    · rw [State.record?_hold_owner]; exact congrArg _ hr
  · have h' : m.place = .held d ∨ (m.place = .awaiting d ∧ s.parksAtExpiry m r ∧ r.parkSettles m = true) := by
      rwa [Record.parkSettles_iff]
    have hhead := hdue (h.symm.imp_left And.left)
    exact hexec hhead (State.expire_waits hhead hm hr h' ht)
  · have hhead := hdue (h.symm.imp_left And.left)
    have hp : m.place ≠ .sending := by rcases h with hp | ⟨hp, -⟩ <;> simp [hp]
    obtain ⟨u, hu⟩ : ∃ u, ((s₁.settle .abandoned n).freeOwner false m.owner .expiry).1 = u := ⟨_, rfl⟩
    obtain ⟨hsettled, hstays, hleaves⟩ := State.settle_outcome .abandoned .expiry hm hp ht hr₁ hu
    obtain ⟨hdsu, haru⟩ := hsettled.toSlotFreed.of_timed (h.symm.imp_left And.left)
    refine ⟨u, hexec hhead ((State.expire_abandons hhead hm hr h ht).trans hu), hsettled.gone, hsettled.others, ?_, ?_,
      hstays, hleaves⟩
    · rw [haru, herase]
    · exact hdsu
  · have hhead := hdue (.inl hp)
    have hsettles : r.parkSettles m = true := by
      obtain ⟨-, -, -, -, -, -, -, -, -, -, -, hsame, -⟩ := State.touch_fields ht hr hr₁
      rw [Record.parkSettles_iff, ← hsame, hheld, List.length_cons]; omega
    obtain ⟨hevicted, hstays⟩ := State.park_evicting (State.touch_tableOnly ht) htimed hm hp hrel hr₁ hheld hlen hne hmo
      hown rfl
    refine ⟨_, hexec hhead (State.expire_parks_settling hhead hm hr hp hparks hsettles ht), hevicted.gone,
      hevicted.parked, hevicted.others, hevicted.records, hevicted.free, hevicted.freeCount, fun h => ?_,
      fun d' hd' hnd => hevicted.places d' hd' (List.Nodup.of_cons (htimed ▸ hnd))⟩
    simpa only [Record.settled, Record.settle_abandoned] using hstays h

end Sys2Proof.Machine
end


section
/-! What every step keeps of the output pins and of the intake lines. Most operations leave the lines alone:
`State.LeavesLines` says what such an operation may still do. -/

namespace Sys2Proof.Machine
open Sys2Proof

/-! ## Operations that leave the lines alone -/

/-- ATTN as R179 drives it. -/
def Clu.attnDriven (c : Clu) : Prop := c.attn = (!c.responses.isEmpty || !c.notices.isEmpty)

/-- From `s` to `t` no line changes, link B is not enabled, no line begins to wait, and ATTN stays driven. -/
structure State.LeavesLines (s t : State) : Prop where
  lines : t.lines = s.lines
  linkB : s.rlb.state = .disabled → t.rlb.state = .disabled
  waiters : ∀ n, Waiter.line n ∈ t.pdu.waiters → Waiter.line n ∈ s.pdu.waiters
  attn : s.clu.attnDriven → t.clu.attnDriven

namespace State.LeavesLines
variable {s t u : State}

theorem refl (s : State) : s.LeavesLines s := ⟨rfl, id, fun _ => id, id⟩

theorem trans (h : s.LeavesLines t) (k : t.LeavesLines u) : s.LeavesLines u :=
  ⟨k.lines.trans h.lines, k.linkB ∘ h.linkB, fun n => h.waiters n ∘ k.waiters n, k.attn ∘ h.attn⟩

/-- An operation that writes none of the parts concerned. -/
theorem congr (h : s.LeavesLines t) (hlines : u.lines = t.lines) (hrlb : u.rlb = t.rlb)
    (hwaiters : u.pdu.waiters = t.pdu.waiters) (hclu : u.clu = t.clu) : s.LeavesLines u :=
  h.trans ⟨hlines, by rw [hrlb]; exact id, by rw [hwaiters]; exact fun _ => id, by rw [hclu]; exact id⟩

/-! ### The Command Link Unit -/

theorem raise (h : s.LeavesLines t) (k : NoticeKind) : s.LeavesLines (t.raise k) := by
  refine h.trans ⟨State.raise_lines .., by simp, by simp, fun hattn => ?_⟩
  rcases t.raise_cases k with ⟨-, hk⟩ | ⟨-, hk⟩ <;> rw [hk]
  · simp [Clu.attnDriven]
  · exact hattn

theorem respond (h : s.LeavesLines t) (r : Response) : s.LeavesLines (t.respond r) :=
  h.trans ⟨rfl, id, fun _ => id, fun _ => by simp [Clu.attnDriven]⟩

/-- Only the three fields that ATTN is read from matter. -/
theorem withClu (h : s.LeavesLines t) {c : Clu} (hc : t.clu.attnDriven → c.attnDriven) :
    s.LeavesLines { t with clu := c } := h.trans ⟨rfl, id, fun _ => id, hc⟩

theorem complete (h : s.LeavesLines t) (place : Nat) (result : Result) (params : List Byte) :
    s.LeavesLines (t.complete place result params) := by
  rcases t.complete_cases place result params with ⟨g, -, -, hc⟩ | ⟨-, hc⟩ <;> rw [hc]
  · refine respond ?_ _
    exact h.withClu id
  · exact h

/-! ### The extract and the freeing of a record -/

/-- Waiters taken off the list, or put on it for something that is no line. -/
theorem withWaiters (h : s.LeavesLines t) (hlines : u.lines = t.lines) (hrlb : u.rlb = t.rlb) (hclu : u.clu = t.clu)
    (hw : ∀ n, Waiter.line n ∈ u.pdu.waiters → Waiter.line n ∈ t.pdu.waiters) : s.LeavesLines u :=
  h.trans ⟨hlines, by rw [hrlb]; exact id, hw, by rw [hclu]; exact id⟩

theorem wait (h : s.LeavesLines t) (anew : Bool) {w : Waiter} (hw : ∀ n, w ≠ .line n) :
    s.LeavesLines (t.wait anew w) := by
  refine h.withWaiters rfl rfl rfl fun n hn => ?_
  have hne := (hw n).symm
  cases anew <;> simpa [State.wait, hne] using hn

theorem touch {anew : Bool} {i : Nat} (h : s.LeavesLines t) (ht : t.touch anew i = some u) : s.LeavesLines u := by
  obtain ⟨-, -, -, hlines, -, -, hrlb, -, hclu, -, -, -, -, -, hwaiters, -⟩ := State.touch_frame ht
  exact h.congr hlines hrlb hwaiters hclu

theorem writeEntry (h : s.LeavesLines t) (e : Entry) : s.LeavesLines (t.writeEntry e) :=
  h.congr (by simp) (by simp) (by simp) (by simp)

theorem closeRecord (h : s.LeavesLines t) (i : Nat) (r : Record) : s.LeavesLines (t.closeRecord i r) :=
  h.congr (by simp) (by simp) (by simp) (by simp)

theorem releaseRecord (h : s.LeavesLines t) (i : Nat) (r : Record) : s.LeavesLines (t.releaseRecord i r) := by
  refine raise ?_ _
  exact h.congr rfl rfl rfl rfl

theorem writeClosing {anew : Bool} {i : Nat} {holder : Holder} (h : s.LeavesLines t)
    (ht : t.writeClosing anew i holder = some u) : s.LeavesLines u := by
  have written : ∀ {v : State} (e : Entry) (r : Record), s.LeavesLines v →
      s.LeavesLines (((v.writeEntry e).releaseRecord i r).countFreed holder) := fun e r hv =>
    ((hv.writeEntry e).releaseRecord i r).congr (by simp) (by simp) (by simp) (by simp)
  rcases t.writeClosing_cases anew i holder with ⟨-, hc⟩ | ⟨r, -, -, -, hc⟩ | ⟨r, -, -, -, hc⟩ | ⟨r, -, -, hc⟩ <;>
    rw [hc] at ht <;> cases ht
  · exact h
  · exact written _ _ h
  · exact written _ _ (h.closeRecord i r)

theorem updateRecord (h : s.LeavesLines t) (i : Nat) (f : Record → Record) : s.LeavesLines (t.updateRecord i f) :=
  h.congr (by simp) (by simp) (by simp) (by simp)

theorem beginFreeing (h : s.LeavesLines t) (anew : Bool) (i : Nat) (holder : Holder) :
    s.LeavesLines (t.beginFreeing anew i holder).1 := by
  unfold State.beginFreeing
  dsimp only
  split
  next hw => exact (h.updateRecord i _).writeClosing hw
  next => exact (h.updateRecord i _).wait anew (by simp)

theorem freeOwner (h : s.LeavesLines t) (anew : Bool) (i : Nat) (holder : Holder) :
    s.LeavesLines (t.freeOwner anew i holder).1 := by
  unfold State.freeOwner
  split
  · exact h.beginFreeing anew i holder
  · exact h

/-! ### The message store -/

theorem updateMessage (h : s.LeavesLines t) (n : Nat) (f : Message → Message) : s.LeavesLines (t.updateMessage n f) :=
  h.congr (by simp) (by simp) (by simp) (by simp)

theorem lowerFree (h : s.LeavesLines t) : s.LeavesLines t.lowerFree := by
  unfold State.lowerFree
  dsimp only
  split
  · refine raise ?_ _
    exact h.congr rfl rfl rfl rfl
  · exact h.congr rfl rfl rfl rfl

theorem raiseFree (h : s.LeavesLines t) : s.LeavesLines t.raiseFree := by
  unfold State.raiseFree
  dsimp only
  split
  · refine raise ?_ _
    exact h.congr rfl rfl rfl rfl
  · exact h.congr rfl rfl rfl rfl

theorem settle (h : s.LeavesLines t) (e : Ending) (n : Nat) : s.LeavesLines (t.settle e n) := by
  cases hm : t.message? n with
  | none => rwa [State.settle_free hm]
  | some m =>
    rw [State.settle_eq hm, State.freeSlot_eq]
    exact raiseFree (h.congr (by simp) (by simp) (by simp) (by simp))

theorem evictOldest (h : s.LeavesLines t) (i : Nat) : s.LeavesLines (t.evictOldest i) := by
  unfold State.evictOldest
  split
  next r _ =>
    split
    · split
      · exact h.settle _ _
      · exact h
    · exact h
  next => exact h

theorem park (h : s.LeavesLines t) (n : Nat) : s.LeavesLines (t.park n) := by
  cases hm : t.message? n with
  | none => simpa [State.park, hm] using h
  | some m =>
    rcases State.park_cases hm with ⟨-, hp⟩ | ⟨-, hp⟩ <;> rw [hp]
    · exact h.settle _ _
    · exact ((h.congr (by simp) (by simp) (by simp) (by simp) : s.LeavesLines (t.takeOut n m.place)).evictOldest
        m.owner).congr (by simp) (by simp) (by simp) (by simp)

theorem allocate (h : s.LeavesLines t) (n : Nat) (free : FreeList) (i : Nat) (r : Record) (src : Source) (p : Priority)
    (body : List Byte) (c : Nat) : s.LeavesLines (t.allocate n free i r src p body c) := by
  refine (lowerFree (t := { t with msu := { t.msu with free := free } }) ?_).congr rfl rfl rfl rfl
  exact h.congr rfl rfl rfl rfl

/-! ### Takes, moves and the end of an event -/

theorem take (h : s.LeavesLines t) (anew : Bool) : s.LeavesLines (t.take anew) := by
  have popped : ∀ {v : State} (q : QueueName) (n : Nat) (rest : List Nat), s.LeavesLines v →
      s.LeavesLines (v.popQueue q n rest) := fun q n rest hv => hv.congr (by simp) (by simp) (by simp) (by simp)
  rcases t.take_cases anew with ⟨-, ht⟩ | ⟨q, -, -, ht⟩ | ⟨q, n, rest, -, -, ⟨-, ht⟩ | ⟨m, -, ⟨-, ht⟩ | ⟨r, -, hcase⟩⟩⟩
  · rwa [ht]
  · rwa [ht]
  · rw [ht]; exact popped q n rest h
  · rw [ht]; exact popped q n rest h
  · rcases hcase with ⟨-, ht⟩ | ⟨-, -, ht⟩ | ⟨-, -, -, ht⟩ | ⟨-, -, v, hv, ht⟩ <;> rw [ht]
    · exact (popped q n rest h).congr (by simp) (by simp) (by simp) (by simp)
    · exact (popped q n rest h).park n
    · exact h.wait anew (by simp)
    · exact ((popped q n rest (h.touch hv)).park n).freeOwner ..

theorem dispatchLoop (h : s.LeavesLines t) (k : Nat) : s.LeavesLines (Machine.dispatchLoop k t) := by
  induction k generalizing t with
  | zero => exact h
  | succ k ih =>
    unfold Machine.dispatchLoop
    split
    · exact ih (h.congr (by simp) (by simp) (by simp) (by simp))
    · split
      · exact ih (h.take false)
      · exact h

theorem completeReset (h : s.LeavesLines t) : s.LeavesLines t.completeReset := by
  rcases t.completeReset_cases with ⟨-, hc⟩ | ⟨f, -, -, hc⟩ <;> rw [hc]
  · exact h
  · refine complete ?_ _ _ _
    exact h.congr rfl rfl rfl rfl

theorem restoreZones (h : s.LeavesLines t) : s.LeavesLines t.restoreZones := by
  rcases t.restoreZones_cases with ⟨-, -, hc⟩ | ⟨-, hc⟩ <;> rw [hc]
  · refine raise ?_ _
    exact h.congr rfl rfl rfl rfl
  · exact h

theorem markOutage (h : s.LeavesLines t) : s.LeavesLines t.markOutage := by
  rcases t.markOutage_cases with ⟨-, hc⟩ | ⟨-, hc⟩ <;> rw [hc]
  · refine raise ?_ _
    exact h.congr rfl rfl rfl rfl
  · exact h

theorem resumeSweep (h : s.LeavesLines t) : s.LeavesLines t.resumeSweep := by
  rcases t.resumeSweep_cases with ⟨-, -, hc⟩ | ⟨-, hc⟩ <;> rw [hc]
  · exact h.congr rfl rfl rfl rfl
  · exact h

theorem afterTraffic (h : s.LeavesLines t) : s.LeavesLines t.afterTraffic :=
  (h.completeReset.restoreZones.dispatchLoop _).markOutage.resumeSweep

/-! ### Frame completion and expiry -/

theorem countFlushed (h : s.LeavesLines t) : s.LeavesLines t.countFlushed := h.congr rfl rfl rfl rfl

theorem completeFrame (h : s.LeavesLines t) (anew : Bool) : s.LeavesLines (t.completeFrame anew) := by
  unfold State.completeFrame
  split
  next => exact h
  next b _ =>
    split
    next => exact h.congr rfl rfl rfl rfl
    next m _ =>
      split
      next =>
        unfold State.flushCompletion
        split
        next => exact h.wait anew (by simp)
        next v hv => exact ((h.touch hv).settle .flushed b.slot).countFlushed.freeOwner ..
      next =>
        dsimp only
        split
        next e _ =>
          unfold State.settleCompletion
          split
          next => exact h.wait anew (by simp)
          next v hv => exact (((h.touch hv).updateMessage _ _).settle e b.slot).freeOwner ..
        next => split <;> exact h.congr (by simp) (by simp) (by simp) (by simp)

theorem expire (h : s.LeavesLines t) (anew : Bool) : s.LeavesLines (t.expire anew) := by
  unfold State.expire
  split
  next => exact h
  next n _ =>
    split
    next => exact h
    next m _ =>
      split
      next => exact h
      next r _ =>
        split
        next =>
          split
          next => exact h.wait anew (by simp)
          next v hv => exact ((h.touch hv).settle .abandoned n).freeOwner ..
        next =>
          split
          next => exact h.congr (by simp) (by simp) (by simp) (by simp)
          next =>
            split
            next =>
              split
              next => exact h.wait anew (by simp)
              next v hv => exact ((h.touch hv).park n).freeOwner ..
            next => exact h.park n

/-! ### Return links and reports -/

/-- A link that is not enabled stays so. -/
theorem putReceiver (h : s.LeavesLines t) (l : Link) {r : Receiver}
    (hr : (t.receiver l).state = .disabled → r.state = .disabled) : s.LeavesLines (t.putReceiver l r) := by
  refine h.trans ⟨State.putReceiver_lines .., ?_, by simp, by simp⟩
  cases l with
  | a => exact id
  | b => exact hr

theorem popReport (h : s.LeavesLines t) (l : Link) : s.LeavesLines (t.popReport l) := h.putReceiver l id

theorem setPresence (h : s.LeavesLines t) (i : Nat) (p : Presence) : s.LeavesLines (t.setPresence i p) :=
  h.updateRecord i _

theorem takeAck (h : s.LeavesLines t) (anew : Bool) (l : Link) (i : Nat) (r : Record) (tag zone : Nat) :
    s.LeavesLines (t.takeAck anew l i r tag zone) := by
  unfold State.takeAck
  split
  next => exact (h.setPresence i _).popReport l
  next n m _ =>
    split
    next => exact ((h.setPresence i _).updateMessage n _).popReport l
    next =>
      split
      next => exact h.wait anew (by simp)
      next v hv =>
        have hk := (((h.touch hv).setPresence i (.here zone)).settle .delivered n).freeOwner anew i (.report l)
        split <;> rename_i hw <;> rw [hw] at hk
        · exact hk
        · exact hk.popReport l

theorem takeRegister (h : s.LeavesLines t) (i : Nat) (r : Record) (zone : Nat) :
    s.LeavesLines (t.takeRegister i r zone) := by
  have released : ∀ (l : List Nat) {v : State}, s.LeavesLines v → s.LeavesLines (l.foldl State.releaseSlot v) := by
    intro l
    induction l with
    | nil => exact id
    | cons n l ih => exact fun hv => ih (hv.congr (by simp) (by simp) (by simp) (by simp))
  exact released r.held (h.updateRecord i _)

theorem takeReport (h : s.LeavesLines t) (anew : Bool) (l : Link) : s.LeavesLines (t.takeReport anew l) := by
  unfold State.takeReport
  split
  next => exact h
  next rep _ _ =>
    split
    next =>
      split
      next => exact h.popReport l
      next i _ =>
        split
        next => exact h.popReport l
        next r _ =>
          split
          next => exact h.popReport l
          next =>
            cases rep with
            | ack _ tag zone => exact h.takeAck anew l i r tag zone
            | register _ zone => exact (h.takeRegister i r zone).popReport l
            | leave => exact (h.setPresence i .away).popReport l
    next => exact h.popReport l

theorem offerReport (h : s.LeavesLines t) (l : Link) (rep : Report) : s.LeavesLines (t.offerReport l rep) := by
  unfold State.offerReport
  dsimp only
  split
  · exact h.putReceiver l id
  · split
    · exact h.putReceiver l id
    · refine raise ?_ _
      exact h.putReceiver l id

theorem returnCharacter (h : s.LeavesLines t) (l : Link) (data : Byte) (bad : Bool) :
    s.LeavesLines (t.returnCharacter l data bad) := by
  unfold State.returnCharacter
  dsimp only
  split
  next => exact h
  next hs =>
    split
    · exact h.putReceiver l (by simp [hs])
    · exact h
  next hs =>
    split
    · unfold State.endReport
      dsimp only
      split
      · refine offerReport ?_ l _
        exact h.putReceiver l (by simp [hs])
      · exact h.putReceiver l (by simp [hs])
    · exact h.putReceiver l (by simp [hs])

theorem timeOutReport (h : s.LeavesLines t) {l : Link} (ht : (t.receiver l).timedOut = true) :
    s.LeavesLines (t.timeOutReport l) := by
  have hs : (t.receiver l).state = .assembling := by
    rw [Receiver.timedOut, Bool.and_eq_true, beq_iff_eq] at ht
    exact ht.1
  exact h.putReceiver l (by simp [hs])

/-! ### Cancelling and flushing -/

theorem cancelSlot (h : s.LeavesLines t) (n : Nat) (m : Message) : s.LeavesLines (t.cancelSlot n m) := by
  unfold State.cancelSlot
  split
  · exact h.settle _ _
  · exact h.updateMessage _ _
  · exact h

theorem takeCancel (h : s.LeavesLines t) (anew : Bool) (place : Nat) (reference : BitVec 16) :
    s.LeavesLines (takeCancel anew place reference t).1 := by
  unfold Machine.takeCancel
  split
  next => exact h
  next =>
    split
    next => exact h
    next n _ =>
      split
      next => exact h
      next m _ =>
        split
        next =>
          split
          next => exact h.wait anew (by simp)
          next v hv =>
            have hk := ((h.touch hv).cancelSlot n m).freeOwner anew m.owner (.answer place m.settledReply)
            split <;> rename_i hw <;> rwa [hw] at hk
        next => exact h.cancelSlot n m
        next => exact h

theorem flushStep (h : s.LeavesLines t) (anew : Bool) : s.LeavesLines (t.flushStep anew) := by
  have advanced : ∀ {v : State}, s.LeavesLines v → s.LeavesLines v.advanceCursor := fun hv => hv.congr rfl rfl rfl rfl
  unfold State.flushStep
  split
  next f _ =>
    split
    · unfold State.flushSlot
      split
      next => exact advanced h
      next m _ =>
        split
        next => exact advanced h
        next =>
          split
          next => exact h.wait anew (by simp)
          next v hv =>
            have hk := ((h.touch hv).settle .flushed f.cursor).countFlushed.freeOwner anew m.owner .walk
            split <;> rename_i hw <;> rw [hw] at hk
            · exact hk
            · exact advanced hk
    · exact h
  next => exact h

/-! ### Acceptance -/

theorem placeAccepted (h : s.LeavesLines t) (n : Nat) (p : Priority) (held : Bool) :
    s.LeavesLines (t.placeAccepted n p held) := by
  unfold State.placeAccepted
  split
  · exact h.park n
  · exact h.congr rfl rfl rfl rfl

/-- An acceptance leaves the lines alone, but that the operation that asked for it may wait. -/
theorem accept (h : s.LeavesLines t) {anew : Bool} {w : Waiter} {src : Source} {sub : Submission} {a : Acceptance}
    (hacc : t.accept anew w src sub = (u, a)) :
    (a = .waits ∧ u = t.wait anew w) ∨ (a ≠ .waits ∧ s.LeavesLines u) := by
  rcases t.accept_cases anew w src sub with ⟨why, figures, -, ha⟩ | ⟨i, c, -, -, ha⟩ |
    ⟨i, c, v, r, n, free, -, hv, -, -, ha⟩ | ⟨i, c, v, -, hv, -, ha⟩ <;> rw [ha] at hacc <;> cases hacc
  · exact .inr ⟨by simp, h⟩
  · exact .inl ⟨rfl, rfl⟩
  · exact .inr ⟨by simp, ((h.touch hv).allocate ..).placeAccepted ..⟩
  · exact .inr ⟨by simp, h.touch hv⟩

theorem takeSubmit (h : s.LeavesLines t) (anew : Bool) (place : Nat) (a : SubmitArgs) :
    s.LeavesLines (takeSubmit anew place a t).1 := by
  unfold Machine.takeSubmit
  split
  next => exact h
  next p _ =>
    split
    next => exact h
    next =>
      cases hacc : t.accept anew (.command place (.submit a)) .commandLink
        { number := a.number.toNat, priority := p, body := a.body } with
      | mk u outcome =>
        have hu : s.LeavesLines u := by
          rcases h.accept hacc with ⟨-, rfl⟩ | ⟨-, hk⟩
          · exact h.wait anew (by simp)
          · exact hk
        cases outcome <;> exact hu

/-! ### The subscriber table -/

theorem alterRecord (h : s.LeavesLines t) (i : Nat) (r : Record) (a : AlterArgs) :
    s.LeavesLines (t.alterRecord i r a) :=
  h.congr (by simp [State.alterRecord]) (by simp [State.alterRecord]) (by simp [State.alterRecord])
    (by simp [State.alterRecord])

/-- The touch-sweep that a command makes only when it needs one. -/
theorem maybeTouch {b anew : Bool} {i : Nat} (h : s.LeavesLines t)
    (ht : (if b then t.touch anew i else some t) = some u) : s.LeavesLines u := by
  split at ht
  · exact h.touch ht
  · cases ht; exact h

theorem takeAlter (h : s.LeavesLines t) (anew : Bool) (place : Nat) (a : AlterArgs) :
    s.LeavesLines (takeAlter anew place a t).1 := by
  unfold Machine.takeAlter
  split
  next => exact h
  next =>
    split
    next => exact h
    next =>
      split
      next => exact h
      next i _ =>
        split
        next => exact h
        next =>
          split
          next => exact h
          next =>
            split
            next => exact h
            next =>
              split
              next => exact h.wait anew (by simp)
              next v hv =>
                split
                next => exact h.maybeTouch hv
                next => exact (h.maybeTouch hv).alterRecord ..

theorem takeSetState (h : s.LeavesLines t) (st : RecordState) (number : BitVec 24) :
    s.LeavesLines (takeSetState st number t).1 := by
  unfold Machine.takeSetState
  split
  next => exact h
  next =>
    split
    next => exact h
    next => exact h.updateRecord _ _

theorem takeAdjustBalance (h : s.LeavesLines t) (anew : Bool) (place : Nat) (number : BitVec 24) (amount : BitVec 32) :
    s.LeavesLines (takeAdjustBalance anew place number amount t).1 := by
  unfold Machine.takeAdjustBalance
  split
  next => exact h
  next =>
    split
    next => exact h
    next =>
      split
      next => exact h
      next =>
        split
        next => exact h
        next =>
          split
          next => exact h
          next =>
            split
            next => exact h.wait anew (by simp)
            next v hv => exact (h.touch hv).updateRecord _ _

theorem purge (h : s.LeavesLines t) (l : List Nat) : s.LeavesLines (t.purge l) := by
  induction l generalizing t with
  | nil => exact h
  | cons n l ih =>
    rw [State.purge_cons]
    cases t.message? n with
    | none => exact ih h
    | some m => exact ih (h.cancelSlot n m)

theorem takeRetire (h : s.LeavesLines t) (anew : Bool) (place : Nat) (number : BitVec 24) (mode : Byte) :
    s.LeavesLines (takeRetire anew place number mode t).1 := by
  unfold Machine.takeRetire
  split
  next => exact h
  next =>
    split
    next => exact h
    next purge _ =>
      split
      next => exact h
      next i _ =>
        split
        next => exact h
        next r _ =>
          dsimp only
          split
          next => exact h.wait anew (by simp)
          next v hv =>
            have hretired : s.LeavesLines (v.retireRecord i r) :=
              ((h.maybeTouch hv).congr rfl rfl rfl rfl : s.LeavesLines (v.unlinkNumber r.number i)).updateRecord i _
            generalize hu : (if purge = true then (v.retireRecord i r).purge r.live else v.retireRecord i r) = u
            have hpurged : s.LeavesLines u := by
              rw [← hu]
              split
              · exact hretired.purge _
              · exact hretired
            split
            next =>
              have hk := hpurged.beginFreeing anew i
                (.answer place (retireReply i (if purge = true then (t.purgeable r).length else 0) true))
              split <;> rename_i hw <;> rwa [hw] at hk
            next => exact hpurged

theorem takeAdd (h : s.LeavesLines t) (a : AddArgs) : s.LeavesLines (takeAdd a t).1 := by
  unfold Machine.takeAdd
  split
  next => exact h
  next =>
    split
    next =>
      split_ifs
      next => exact h
      next => exact h
      next => exact h
      next => exact h
      next =>
        split
        next => exact h
        next => exact h.congr rfl rfl rfl rfl
    next => exact h

theorem takeFormat (h : s.LeavesLines t) (code : Byte) (place : Nat) : s.LeavesLines (takeFormat code place t).1 := by
  unfold Machine.takeFormat
  split
  next => exact h
  next =>
    split_ifs
    · exact h
    · exact h
    · exact h.congr rfl rfl rfl rfl

theorem completeFormat (h : s.LeavesLines t) : s.LeavesLines t.completeFormat := by
  unfold State.completeFormat
  dsimp only
  split
  · refine complete ?_ _ _ _
    exact h.congr rfl rfl rfl rfl
  · exact h.congr rfl rfl rfl rfl

/-! ### The other commands and events -/

theorem takeSetTariff (h : s.LeavesLines t) (a : TariffArgs) : s.LeavesLines (takeSetTariff a t).1 := by
  cases a <;> exact h.congr rfl rfl rfl rfl

theorem takeReadMessage (h : s.LeavesLines t) (ref : BitVec 16) : s.LeavesLines (takeReadMessage ref t).1 := by
  unfold Machine.takeReadMessage
  split
  · exact h
  · split <;> exact h

theorem takeFindNumber (h : s.LeavesLines t) (n : BitVec 24) : s.LeavesLines (takeFindNumber n t).1 := by
  unfold Machine.takeFindNumber; split_ifs <;> exact h

theorem takeFindAddress (h : s.LeavesLines t) (n : BitVec 24) : s.LeavesLines (takeFindAddress n t).1 := by
  unfold Machine.takeFindAddress; split_ifs <;> exact h

theorem takeReadRecord (h : s.LeavesLines t) (n : BitVec 16) : s.LeavesLines (takeReadRecord n t).1 := by
  unfold Machine.takeReadRecord; split_ifs <;> exact h

theorem takeLineStatus (h : s.LeavesLines t) (l : Byte) : s.LeavesLines (takeLineStatus l t).1 := by
  unfold Machine.takeLineStatus; split <;> exact h

theorem takeSetOverride (h : s.LeavesLines t) (zones : ZoneSet) (v : Byte) :
    s.LeavesLines (takeSetOverride zones v t).1 := by
  unfold Machine.takeSetOverride
  split
  · exact h
  · exact h.congr rfl rfl rfl rfl

theorem takeHoldDispatch (h : s.LeavesLines t) (v : Byte) : s.LeavesLines (takeHoldDispatch v t).1 := by
  unfold Machine.takeHoldDispatch
  split
  · exact h
  · exact h.congr rfl rfl rfl rfl

theorem takeSetArbiter (h : s.LeavesLines t) (v : Byte) : s.LeavesLines (takeSetArbiter v t).1 := by
  unfold Machine.takeSetArbiter
  split
  · exact h
  · exact h.congr rfl rfl rfl rfl

theorem takeSetReturnLink (h : s.LeavesLines t) (a : LinkArgs) : s.LeavesLines (takeSetReturnLink a t).1 := by
  unfold Machine.takeSetReturnLink
  split
  · split_ifs
    · exact h
    · exact h
    · exact h.putReceiver _ id
  · exact h

theorem takeDisableReturnLink (h : s.LeavesLines t) (l : Byte) : s.LeavesLines (takeDisableReturnLink l t).1 := by
  unfold Machine.takeDisableReturnLink
  split
  · exact h
  · dsimp only
    split_ifs
    · exact h
    · exact h.putReceiver _ fun _ => rfl

theorem takeSetTimebase (h : s.LeavesLines t) (p : BitVec 16) (e : Byte) : s.LeavesLines (takeSetTimebase p e t).1 := by
  unfold Machine.takeSetTimebase
  split_ifs
  · exact h
  · exact h.congr rfl rfl rfl rfl

theorem takeSetClose (h : s.LeavesLines t) (m : BitVec 24) (v : Byte) : s.LeavesLines (takeSetClose m v t).1 := by
  unfold Machine.takeSetClose
  split
  · exact h
  · exact h.congr rfl rfl rfl rfl

theorem startClose (h : s.LeavesLines t) (c : Cause) : s.LeavesLines (t.startClose c) := by
  refine raise ?_ _
  exact h.congr rfl rfl rfl rfl

theorem takeClosePeriod (h : s.LeavesLines t) : s.LeavesLines (takeClosePeriod t).1 := by
  unfold Machine.takeClosePeriod
  split_ifs
  · exact h
  · exact h.startClose _

theorem takeReadExtract (h : s.LeavesLines t) (c : Byte) : s.LeavesLines (takeReadExtract c t).1 := by
  unfold Machine.takeReadExtract
  split_ifs
  · exact h
  · refine resumeSweep ?_
    exact h.congr rfl rfl rfl rfl

theorem takeReadNotices (h : s.LeavesLines t) (c : Byte) : s.LeavesLines (takeReadNotices c t).1 := by
  unfold Machine.takeReadNotices
  split_ifs
  · exact h
  · exact h.withClu fun _ => rfl

theorem advanceMinute (h : s.LeavesLines t) : s.LeavesLines t.advanceMinute := by
  unfold State.advanceMinute
  dsimp only
  split_ifs
  · refine raise ?_ _
    exact h.congr rfl rfl rfl rfl
  · refine startClose ?_ _
    exact h.congr rfl rfl rfl rfl
  · exact h.congr rfl rfl rfl rfl

theorem sweepVisit (h : s.LeavesLines t) : s.LeavesLines t.sweepVisit := by
  have advanced : ∀ {v : State}, s.LeavesLines v → s.LeavesLines v.advanceSweep := fun hv => hv.congr rfl rfl rfl rfl
  unfold State.sweepVisit State.visit
  split_ifs
  · exact h.congr rfl rfl rfl rfl
  · refine raise ?_ _
    exact h.congr rfl rfl rfl rfl
  · exact advanced h
  · split
    · exact advanced h
    next r _ =>
      split_ifs
      · exact advanced h
      · exact advanced (h.closeRecord _ r)

theorem readOutStatus (h : s.LeavesLines t) : s.LeavesLines t.readOutStatus := by
  unfold State.readOutStatus
  split
  · split_ifs
    · exact h
    · exact h.withClu id
  · exact h

theorem settleReply {p : State × Reply} (h : s.LeavesLines p.1) (place : Nat) :
    s.LeavesLines (State.settleReply place p) := by
  obtain ⟨u, reply⟩ := p
  cases reply with
  | now result params => exact h.complete ..
  | later => exact h

theorem retake (h : s.LeavesLines t) (place : Nat) (c : HeldCommand) : s.LeavesLines (t.retake place c).1 := by
  cases c with
  | submit => exact h.takeSubmit ..
  | alter => exact h.takeAlter ..
  | retire => exact h.takeRetire ..
  | cancel => exact h.takeCancel ..
  | adjust => exact h.takeAdjustBalance ..

/-- The turn of a waiter that is no line. -/
theorem takeAnew (h : s.LeavesLines t) {w : Waiter} (hw : ∀ n, w ≠ .line n) : s.LeavesLines (t.takeAnew w) := by
  cases w with
  | line n => exact absurd rfl (hw n)
  | command place c => exact (h.retake place c).settleReply place
  | arbiter =>
    simp only [State.takeAnew]
    split
    · exact h.take true
    · exact h
  | completion => exact h.completeFrame true
  | report l => exact h.takeReport true l
  | expiry => exact h.expire true
  | walk => exact h.flushStep true
  | closing i holder =>
    simp only [State.takeAnew]
    split
    next v hv =>
      have hk := h.writeClosing hv
      cases holder with
      | answer place params => exact hk.complete ..
      | report l => exact hk.popReport l
      | walk => exact hk.congr rfl rfl rfl rfl
      | alone | expiry => exact hk
    next => exact h.wait true (by simp)

end State.LeavesLines

end Sys2Proof.Machine
end


section
/-! What the operations on the lines keep, line by line: `Line.Follows` says what one line may become, and
`State.LinesKept` what every step is to keep of the outputs and of the lines. -/

namespace Sys2Proof.Machine
open Sys2Proof

/-! ## The lines by number -/

section
variable {α : Type}

@[simp] theorem Four.get_set_same (f : Four α) (n : Fin 4) (v : α) : (f.set n v).get n = v := by
  unfold Four.get Four.set
  split_ifs <;> rfl

theorem Four.get_set_other (f : Four α) {n k : Fin 4} (v : α) (h : k ≠ n) : (f.set n v).get k = f.get k := by
  match n, k with
  | 0, 1 | 0, 2 | 0, 3 | 1, 0 | 1, 2 | 1, 3 | 2, 0 | 2, 1 | 2, 3 | 3, 0 | 3, 1 | 3, 2 => rfl
  | 0, 0 | 1, 1 | 2, 2 | 3, 3 => exact absurd rfl h

end

section
variable (s : State) {n k : Fin 4} (l : Line)

@[simp] theorem State.line_putLine_same : (s.putLine n l).line n = l.drive := Four.get_set_same ..

theorem State.line_putLine_other (h : k ≠ n) : (s.putLine n l).line k = s.line k := Four.get_set_other _ _ h

theorem State.line_congr {t : State} (h : t.lines = s.lines) (n : Fin 4) : t.line n = s.line n :=
  congrArg (Four.get · n) h

theorem State.lineWaits_iff : s.lineWaits n = true ↔ Waiter.line n ∈ s.pdu.waiters := by
  simp [State.lineWaits]

end

/-! ## The three properties, line by line -/

section
variable {s t : State} {l l' : Line}

@[simp] theorem Line.rdyDriven_drive (l : Line) : l.drive.rdyDriven = true := by
  simp [Line.rdyDriven, Line.drive, bne, Bool.beq_eq_decide_eq]

theorem State.pinsDriven_iff (s : State) :
    s.pinsDriven = true ↔ s.clu.attnDriven ∧ ∀ n, (s.line n).rdyDriven = true := by
  simp only [State.pinsDriven, Clu.attnDriven, Bool.and_eq_true, beq_iff_eq, and_assoc]
  refine and_congr_right fun _ => ⟨fun ⟨h0, h1, h2, h3⟩ n => ?_, fun h => ⟨h 0, h 1, h 2, h 3⟩⟩
  match n with
  | 0 => exact h0
  | 1 => exact h1
  | 2 => exact h2
  | 3 => exact h3

/-- A line has at most one place in the list of waiters (R165). -/
theorem State.waitersOnce_line (h : s.waitersOnce = true) (n : Fin 4) : s.pdu.waiters.count (.line n) ≤ 1 := by
  simp only [State.waitersOnce, Bool.and_eq_true, and_assoc] at h
  obtain ⟨hlines, -⟩ := h
  exact of_decide_eq_true (List.all_eq_true.mp hlines n (List.mem_finRange n))

/-- Taken out of the list, a line has no place there. -/
theorem State.not_mem_erase_line (h : s.waitersOnce = true) (n : Fin 4) :
    Waiter.line n ∉ s.pdu.waiters.erase (.line n) := by
  rw [← List.count_eq_zero, List.count_erase_self]
  have := State.waitersOnce_line h n
  omega

theorem State.linesGood_iff (s : State) : s.linesGood = true ↔ ∀ n, (s.line n).exchangeGood = true ∧
    (Waiter.line n ∈ s.pdu.waiters → (s.line n).state = .awaitingAcceptance) := by
  simp only [State.linesGood, List.all_eq_true, List.mem_finRange, forall_const, Bool.and_eq_true,
    ← State.lineWaits_iff]
  refine forall_congr' fun n => and_congr_right fun _ => ?_
  cases s.lineWaits n <;> simp

theorem State.pinsShared_iff (s : State) : s.pinsShared = true ↔
    s.rlb.state = .disabled ∨ (s.line 3).state = .disabled := by
  have hline : s.line 3 = s.lines.l3 := rfl
  rw [hline]
  simp only [State.pinsShared, State.linkBEnabled, Line.active, Bool.not_eq_true', Bool.and_eq_false_iff,
    bne_eq_false_iff_eq]

/-- What a line holds, by its state (R77). -/
theorem Line.exchangeGood_iff : l.exchangeGood = true ↔ (l.frame.isSome = true ↔ l.state = .assembling) ∧
    (l.request.isSome = true ↔ l.state = .awaitingAcceptance) ∧ (l.reply ≠ [] ↔ l.state = .replying) := by
  simp only [Line.exchangeGood, Bool.and_eq_true, beq_iff_eq, and_assoc]
  exact and_congr (Bool.eq_iff_iff.trans (by simp))
    (and_congr (Bool.eq_iff_iff.trans (by simp)) (by cases l.reply <;> simp))

/-- A line with a request is AWAITING ACCEPTANCE. -/
theorem Line.awaiting_of_request {sub : Submission} (h : l.exchangeGood = true) (hr : l.request = some sub) :
    l.state = .awaitingAcceptance := (Line.exchangeGood_iff.mp h).2.1.mp (by simp [hr])

/-- Only the state and what the line holds matter. -/
theorem Line.exchangeGood_congr (hstate : l'.state = l.state) (hframe : l'.frame.isSome = l.frame.isSome)
    (hrequest : l'.request = l.request) (hreply : l'.reply = l.reply) : l'.exchangeGood = l.exchangeGood := by
  simp only [Line.exchangeGood, hstate, hframe, hrequest, hreply]

@[simp] theorem Line.exchangeGood_drive (l : Line) : l.drive.exchangeGood = l.exchangeGood := rfl
@[simp] theorem Line.drive_state (l : Line) : l.drive.state = l.state := rfl

@[simp] theorem Line.moveOn_state (l : Line) : l.moveOn.state = l.state := by unfold Line.moveOn; split <;> rfl

@[simp] theorem Line.exchangeGood_moveOn (l : Line) : l.moveOn.exchangeGood = l.exchangeGood := by
  unfold Line.moveOn; split <;> rfl

@[simp] theorem Line.exchangeGood_disable (l : Line) : l.disable.exchangeGood = true := rfl

@[simp] theorem Line.exchangeGood_endExchange (l : Line) : l.endExchange.exchangeGood = true := by
  unfold Line.endExchange
  split
  · rfl
  · rw [Line.exchangeGood_moveOn]; rfl

@[simp] theorem Line.exchangeGood_goDown (l : Line) : l.goDown.exchangeGood = true := by
  unfold Line.goDown; split <;> rfl

/-- A line that sends a reply is REPLYING, and holds nothing else (R95). -/
theorem Line.exchangeGood_sendReply {chars : List Byte} (h : chars ≠ []) : (l.sendReply chars).exchangeGood = true := by
  cases chars with
  | nil => exact absurd rfl h
  | cons c rest => rfl

/-! ## What a line may become -/

/-- The line still holds what its state names; it goes on AWAITING ACCEPTANCE where it `waits`, and it goes on being
DISABLED where its pins are `taken`. -/
structure Line.Follows (waits taken : Prop) (l l' : Line) : Prop where
  good : l.exchangeGood = true → l'.exchangeGood = true
  awaiting : waits → l.state = .awaitingAcceptance → l'.state = .awaitingAcceptance
  disabled : taken → l.exchangeGood = true → l.state = .disabled → l'.state = .disabled

namespace Line.Follows
variable {waits taken : Prop}

theorem of_congr (hstate : l'.state = l.state) (hgood : l'.exchangeGood = l.exchangeGood) : Follows waits taken l l' :=
  ⟨by rw [hgood]; exact id, fun _ h => hstate.trans h, fun _ _ h => hstate.trans h⟩

/-- A line that neither awaits acceptance nor is DISABLED may end in any state whose exchange is good. -/
theorem of_busy (hgood : l.exchangeGood = true → l'.exchangeGood = true) (hawaiting : l.state ≠ .awaitingAcceptance)
    (hdisabled : l.state ≠ .disabled) : Follows waits taken l l' :=
  ⟨hgood, fun _ h => absurd h hawaiting, fun _ _ h => absurd h hdisabled⟩

theorem drive (h : Follows waits taken l l') : Follows waits taken l l'.drive := ⟨h.good, h.awaiting, h.disabled⟩

end Line.Follows

/-- A good lead begins a frame from a line that has neither a request nor a reply (R85). -/
theorem Line.exchangeGood_beginFrame (h : l.exchangeGood = true) (hs : l.state = .idle ∨ l.state = .assembling) :
    l.beginFrame.exchangeGood = true := by
  obtain ⟨-, hrequest, hreply⟩ := Line.exchangeGood_iff.mp h
  have hr : l.request = none := by
    rw [← Option.not_isSome_iff_eq_none, hrequest]; rcases hs with hs | hs <;> simp [hs]
  have hy : l.reply = [] := by
    by_contra hne
    have := hreply.mp hne
    rcases hs with hs | hs <;> simp [hs] at this
  simp [Line.exchangeGood, Line.beginFrame, hr, hy]

/-- A line that holds nothing may become IDLE. -/
theorem Line.exchangeGood_idle (h : l.exchangeGood = true) (hs : l.state = .disabled ∨ l.state = .down) :
    ({ l with state := .idle } : Line).exchangeGood = true := by
  rw [← h]
  rcases hs with hs | hs <;> simp only [Line.exchangeGood, hs] <;> rfl

theorem Line.exchangeGood_enable (h : l.exchangeGood = true) (hs : l.state = .disabled) :
    l.enable.exchangeGood = true := by
  rw [← Line.exchangeGood_idle h (.inl hs)]
  unfold Line.enable
  dsimp only
  split <;> rfl

theorem Line.exchangeGood_recover {data : Byte} (h : l.exchangeGood = true) (hs : l.state = .down) :
    (l.recover data).exchangeGood = true := by
  rw [← Line.exchangeGood_idle h (.inr hs), Line.recover, Line.exchangeGood_moveOn]
  rfl

/-! ### The characters of a frame -/

@[simp] theorem Line.applyGap_state (l : Line) (gap : Bool) : (l.applyGap gap).state = l.state := by
  unfold Line.applyGap; split <;> rfl

@[simp] theorem Line.exchangeGood_applyGap (l : Line) (gap : Bool) :
    (l.applyGap gap).exchangeGood = l.exchangeGood := by
  unfold Line.applyGap
  split
  · exact Line.exchangeGood_congr rfl Option.isSome_map rfl rfl
  · rfl

theorem Line.exchangeGood_endFrame (l : Line) (f : Frame) (c : RxChar) : (l.endFrame f c).exchangeGood = true := by
  unfold Line.endFrame
  split
  · split
    · exact Line.exchangeGood_sendReply (by simp [refusedReply])
    · rfl
  · exact Line.exchangeGood_sendReply (by simp [refusedReply])

theorem Line.exchangeGood_takeIdle {c : RxChar} (h : l.exchangeGood = true) (hs : l.state = .idle) :
    (l.takeIdle c).exchangeGood = true := by
  unfold Line.takeIdle
  split_ifs
  · exact Line.exchangeGood_beginFrame h (.inl hs)
  · rwa [Line.exchangeGood_moveOn]
  · exact h

theorem Line.exchangeGood_takeAssembling {f : Frame} {c : RxChar} (h : l.exchangeGood = true)
    (hs : l.state = .assembling) (hf : l.frame = some f) : (l.takeAssembling f c).exchangeGood = true := by
  unfold Line.takeAssembling
  dsimp only
  split_ifs
  · exact Line.exchangeGood_endFrame l f c
  · exact Line.exchangeGood_beginFrame h (.inr hs)
  · exact Line.exchangeGood_sendReply (by simp [refusedReply])
  · rw [← h]; exact Line.exchangeGood_congr rfl (by simp [hf]) rfl rfl

theorem Line.Follows.takeCharacter {waits taken : Prop} (l : Line) : Line.Follows waits taken l l.takeCharacter := by
  unfold Line.takeCharacter
  split
  next => exact .of_congr rfl rfl
  next c rest _ =>
    dsimp only
    split
    next hs =>
      refine .of_busy (fun h => ?_) (by simp [hs]) (by simp [hs])
      rw [Line.exchangeGood_applyGap]
      exact Line.exchangeGood_takeIdle h hs
    next f hs hf =>
      refine .of_busy (fun h => ?_) (by simp [hs]) (by simp [hs])
      rw [Line.exchangeGood_applyGap]
      exact Line.exchangeGood_takeAssembling h hs hf
    next => exact .of_congr rfl rfl

/-! ### A character that completes -/

/-- The run of breaks after a character that completes (R83). -/
def Line.runAfter (l : Line) (data : Byte) (stop : Bool) : Nat := if !stop && data == 0 then l.breakRun + 1 else 0

/-- A line that is in use with the character that completes on it, whatever becomes of it (R81 to R83). -/
def Line.received (l : Line) (data : Byte) (mark parity stop : Bool) : Line :=
  { l.receive data (l.badCharacter data mark parity stop) with breakRun := l.runAfter data stop }

section
variable {n : Fin 4} {data : Byte} {mark parity stop : Bool}

theorem State.intakeCharacter_disabled (h : (s.line n).state = .disabled) :
    s.intakeCharacter n data mark parity stop = s := by
  simp only [State.intakeCharacter, h]

theorem State.intakeCharacter_down (h : (s.line n).state = .down) : s.intakeCharacter n data mark parity stop =
    if (s.line n).badCharacter data mark parity stop then s
    else (s.putLine n ((s.line n).recover data)).raise (.lineUp n) := by
  simp only [State.intakeCharacter, h]

theorem State.intakeCharacter_busy (hdisabled : (s.line n).state ≠ .disabled) (hdown : (s.line n).state ≠ .down) :
    s.intakeCharacter n data mark parity stop =
      if 3 ≤ (s.line n).runAfter data stop then (s.putLine n ((s.line n).received data mark parity stop)).lineDown n
      else s.putLine n ((s.line n).received data mark parity stop) := by
  unfold State.intakeCharacter
  dsimp only
  split
  · exact absurd ‹_› hdisabled
  · exact absurd ‹_› hdown
  · rfl

@[simp] theorem Line.received_state (l : Line) (data : Byte) (mark parity stop : Bool) :
    (l.received data mark parity stop).state = l.state := by
  unfold Line.received Line.receive; split <;> rfl

@[simp] theorem Line.exchangeGood_received (l : Line) (data : Byte) (mark parity stop : Bool) :
    (l.received data mark parity stop).exchangeGood = l.exchangeGood := by
  unfold Line.received Line.receive; split <;> rfl

end

/-! ## Operations on the lines -/

/-- What every step is to keep: the output pins; and, where each waiter has one place (`once`), what the lines hold and
the pins that link B and line 3 share. -/
structure State.LinesKept (once : Prop) (s t : State) : Prop where
  driven : s.pinsDriven = true → t.pinsDriven = true
  good : once → s.linesGood = true → t.linesGood = true
  shared : once → s.linesGood = true → s.pinsShared = true → t.pinsShared = true

namespace State.LinesKept
variable {once : Prop} {u : State}

theorem refl (s : State) : LinesKept once s s := ⟨id, fun _ => id, fun _ _ => id⟩

theorem trans (h : LinesKept once s t) (k : LinesKept once t u) : LinesKept once s u :=
  ⟨k.driven ∘ h.driven, fun ho => k.good ho ∘ h.good ho, fun ho hg => k.shared ho (h.good ho hg) ∘ h.shared ho hg⟩

/-- Line by line: each keeps its RDY driven, and what it holds. -/
theorem of_lines (hdriven : ∀ n, (s.line n).rdyDriven = true → (t.line n).rdyDriven = true)
    (hfollows : ∀ n, Line.Follows (once ∧ .line n ∈ t.pdu.waiters) (n = 3 ∧ s.linkBEnabled = true) (s.line n)
      (t.line n))
    (hlinkB : s.rlb.state = .disabled → t.rlb.state = .disabled)
    (hwaiters : ∀ n, Waiter.line n ∈ t.pdu.waiters → Waiter.line n ∈ s.pdu.waiters)
    (hattn : s.clu.attnDriven → t.clu.attnDriven) : LinesKept once s t := by
  constructor <;> simp only [State.pinsDriven_iff, State.linesGood_iff, State.pinsShared_iff]
  · exact fun ⟨ha, hr⟩ => ⟨hattn ha, fun n => hdriven n (hr n)⟩
  · intro ho hg n
    obtain ⟨hgood, hawaits⟩ := hg n
    exact ⟨(hfollows n).good hgood, fun hw => (hfollows n).awaiting ⟨ho, hw⟩ (hawaits (hwaiters n hw))⟩
  · intro ho hg hs
    by_cases hb : s.rlb.state = .disabled
    · exact .inl (hlinkB hb)
    · exact .inr ((hfollows 3).disabled ⟨rfl, by simpa [State.linkBEnabled] using hb⟩ (hg 3).1 (hs.resolve_left hb))

/-- A write of one line drives its RDY. -/
theorem putLine {n : Fin 4}
    (h : Line.Follows (once ∧ .line n ∈ s.pdu.waiters) (n = 3 ∧ s.linkBEnabled = true) (s.line n) l) :
    LinesKept once s (s.putLine n l) := by
  have hcases : ∀ k, k = n ∧ (s.putLine n l).line k = l.drive ∨ (s.putLine n l).line k = s.line k := by
    intro k
    by_cases hk : k = n
    · exact .inl ⟨hk, hk ▸ State.line_putLine_same ..⟩
    · exact .inr (State.line_putLine_other _ _ hk)
  refine of_lines (fun k => ?_) (fun k => ?_) id (fun _ => id) id
  · rcases hcases k with ⟨-, hk⟩ | hk <;> rw [hk]
    · exact fun _ => Line.rdyDriven_drive l
    · exact id
  · rcases hcases k with ⟨rfl, hk⟩ | hk <;> rw [hk]
    · exact h.drive
    · exact .of_congr rfl rfl

end State.LinesKept

theorem State.LeavesLines.kept {once : Prop} (h : s.LeavesLines t) : s.LinesKept once t := by
  have hline := State.line_congr s h.lines
  refine .of_lines (fun n => by rw [hline]; exact id) (fun n => ?_) h.linkB h.waiters h.attn
  rw [hline]; exact .of_congr rfl rfl

namespace State.LinesKept
variable {once : Prop} {u : State}

/-! ### The commands of the lines and of link B -/

/-- SET LINE writes no line that is enabled, and no part of what it holds (R98). -/
theorem takeSetLine (s : State) (a : LineArgs) : LinesKept once s (takeSetLine a s).1 := by
  unfold Machine.takeSetLine
  split
  next => exact .refl s
  next n _ =>
    split
    next => exact .refl s
    next l hl =>
      split
      next => exact .refl s
      next =>
        have hsame : l.state = (s.line n).state ∧ l.exchangeGood = (s.line n).exchangeGood := by
          unfold lineSettings at hl
          split at hl
          · dsimp only at hl
            split_ifs at hl <;> cases hl <;> exact ⟨rfl, rfl⟩
          · cases hl
        exact .putLine (.of_congr hsame.1 hsame.2)

/-- DISABLE LINE acts on a line that is IDLE or DOWN, and marks any other (R100). -/
theorem takeDisableLine (s : State) (line : Byte) : LinesKept once s (takeDisableLine line s).1 := by
  unfold Machine.takeDisableLine
  split
  next => exact .refl s
  next n _ =>
    dsimp only
    split
    next => exact .refl s
    next hs => exact .putLine (.of_busy (fun _ => rfl) (by simp [hs]) (by simp [hs]))
    next hs => exact .putLine (.of_busy (fun _ => rfl) (by simp [hs]) (by simp [hs]))
    next => exact .putLine (.of_congr rfl rfl)

/-- ENABLE LINE leaves line 3 DISABLED while link B is enabled (R99, R102). -/
theorem takeEnableLine (s : State) (line : Byte) : LinesKept once s (takeEnableLine line s).1 := by
  unfold Machine.takeEnableLine
  split
  next => exact .refl s
  next n _ =>
    split
    next => exact .refl s
    next hpins =>
      dsimp only
      split
      next hs =>
        refine .putLine ⟨fun h => Line.exchangeGood_enable h hs, fun _ ha => ?_, fun htaken => absurd htaken hpins⟩
        rw [hs] at ha; cases ha
      next => exact .putLine (.of_congr rfl rfl)

/-- ENABLE RETURN LINK leaves link B disabled while line 3 is enabled (R102, R134). -/
theorem takeEnableReturnLink (s : State) (link : Byte) : LinesKept once s (takeEnableReturnLink link s).1 := by
  unfold Machine.takeEnableReturnLink
  split
  next => exact .refl s
  next l _ =>
    dsimp only
    split_ifs with hs hpins
    · exact .refl s
    · exact .refl s
    · cases l with
      | a => exact State.LeavesLines.kept ⟨rfl, id, fun _ => id, id⟩
      | b =>
        have hline : (s.line 3).state = .disabled := by simpa [Line.active] using hpins
        refine ⟨id, fun _ => id, fun _ _ _ => ?_⟩
        rw [State.pinsShared_iff]
        exact .inr hline

/-- A TRAFFIC RESET ends the exchange of every line that is ASSEMBLING (R104). -/
theorem takeTrafficReset (s : State) (place : Nat) : LinesKept once s (takeTrafficReset place s).1 := by
  unfold Machine.takeTrafficReset
  split_ifs
  · exact .refl s
  · exact .refl s
  · have hline : ∀ n, State.line { s with lines := s.lines.map Line.trafficReset } n = (s.line n).trafficReset :=
      Four.get_map Line.trafficReset s.lines
    refine .of_lines (fun n => ?_) (fun n => ?_) id (fun _ => id) id
    · refine fun hr => ((congrArg Line.rdyDriven (hline n)).trans ?_)
      unfold Line.trafficReset
      split
      · exact Line.rdyDriven_drive _
      · exact hr
    · refine (hline n).symm ▸ ?_
      by_cases hs : (s.line n).state = .assembling
      · rw [Line.trafficReset, if_pos hs]
        exact .of_busy (fun _ => Line.exchangeGood_endExchange _) (by simp [hs]) (by simp [hs])
      · rw [Line.trafficReset_other hs]; exact .of_congr rfl rfl

/-! ### Starts -/

section
variable {code tag : Byte} {take : Nat → State → State × Reply}

/-- A command whose taking keeps them keeps them when started (R175, R176). -/
theorem start (ht : ∀ place, LinesKept once s (take place s).1) : LinesKept once s (s.start code tag take) := by
  cases hf : s.responseFull
  · have hk := ht s.freshPlace
    cases hr : take s.freshPlace s with
    | mk t reply =>
      rw [hr] at hk
      refine hk.trans (State.LeavesLines.kept ?_)
      cases reply with
      | now result params => rw [State.start_now hf hr]; exact (State.LeavesLines.refl t).respond _
      | later => rw [State.start_later hf hr]; exact (State.LeavesLines.refl t).withClu id
  · rw [State.start_full hf]; exact .refl s

theorem startTraffic (ht : ∀ place, LinesKept once s (take place s).1) :
    LinesKept once s (s.startTraffic code tag take) := by
  unfold State.startTraffic
  split
  · exact .refl s
  · exact (start ht).trans (State.LeavesLines.refl _).afterTraffic.kept

end

/-- Every host command keeps them when it is started. -/
theorem startHost (s : State) (i : Instr) : LinesKept once s (startHost i s) := by
  have h := State.LeavesLines.refl s
  have same : ∀ {t : State}, t.lines = s.lines → t.rlb = s.rlb → t.pdu.waiters = s.pdu.waiters → t.clu = s.clu →
      LinesKept once s t := fun h1 h2 h3 h4 => (h.congr h1 h2 h3 h4).kept
  cases i with
  | format => exact start fun _ => (h.takeFormat ..).kept
  | add => exact start fun _ => (h.takeAdd ..).kept
  | alter => exact start fun _ => (h.takeAlter ..).kept
  | suspend => exact start fun _ => (h.takeSetState ..).kept
  | resume => exact start fun _ => (h.takeSetState ..).kept
  | retire => exact startTraffic fun _ => (h.takeRetire ..).kept
  | findNumber => exact start fun _ => (h.takeFindNumber ..).kept
  | findAddress => exact start fun _ => (h.takeFindAddress ..).kept
  | readRecord => exact start fun _ => (h.takeReadRecord ..).kept
  | cancel => exact startTraffic fun _ => (h.takeCancel ..).kept
  | readMessage => exact start fun _ => (h.takeReadMessage ..).kept
  | trafficReset => exact start fun _ => takeTrafficReset ..
  | setTariff => exact start fun _ => (h.takeSetTariff ..).kept
  | readTariff => exact start (take := fun _ => takeReadTariff) fun _ => .refl s
  | adjustBalance => exact start fun _ => (h.takeAdjustBalance ..).kept
  | setLine => exact start fun _ => takeSetLine ..
  | enableLine => exact start fun _ => takeEnableLine ..
  | disableLine => exact start fun _ => takeDisableLine ..
  | lineStatus => exact start fun _ => (h.takeLineStatus ..).kept
  | submit => exact startTraffic fun _ => (h.takeSubmit ..).kept
  | setZones _ zones => exact startTraffic (take := fun _ => takeSetZones zones) fun _ => same rfl rfl rfl rfl
  | setOverride => exact startTraffic fun _ => (h.takeSetOverride ..).kept
  | zoneStatus => exact start (take := fun _ => takeZoneStatus) fun _ => .refl s
  | setTransmitter _ d => exact start (take := fun _ => takeSetTransmitter d) fun _ => same rfl rfl rfl rfl
  | holdDispatch => exact startTraffic fun _ => (h.takeHoldDispatch ..).kept
  | setArbiter => exact start fun _ => (h.takeSetArbiter ..).kept
  | dispatchStatus => exact start (take := fun _ => takeDispatchStatus) fun _ => .refl s
  | setReturnLink => exact start fun _ => (h.takeSetReturnLink ..).kept
  | enableReturnLink => exact start fun _ => takeEnableReturnLink ..
  | disableReturnLink => exact start fun _ => (h.takeDisableReturnLink ..).kept
  | setRetry _ w0 aMax hold => exact start (take := fun _ => takeSetRetry w0 aMax hold) fun _ => same rfl rfl rfl rfl
  | returnStatus => exact start (take := fun _ => takeReturnStatus) fun _ => .refl s
  | setTimebase => exact start fun _ => (h.takeSetTimebase ..).kept
  | setClock _ minute => exact start (take := fun _ => takeSetClock minute) fun _ => same rfl rfl rfl rfl
  | setClose => exact start fun _ => (h.takeSetClose ..).kept
  | closePeriod => exact start fun _ => h.takeClosePeriod.kept
  | readExtract => exact start fun _ => (h.takeReadExtract ..).kept
  | periodStatus => exact start (take := fun _ => takePeriodStatus) fun _ => .refl s
  | status => exact start (take := fun _ => takeStatus) fun _ => .refl s
  | readNotices => exact start fun _ => (h.takeReadNotices ..).kept
  | _ => exact .refl s

theorem startFrame (s : State) (f : CommandFrame) : LinesKept once s (s.startFrame f) := by
  have answered : ∀ r : Response, LinesKept once s (s.respond r) := fun r =>
    ((State.LeavesLines.refl s).respond r).kept
  unfold State.startFrame
  split
  · exact answered _
  · exact answered _
  · split
    · exact answered _
    · exact startHost ..

/-- A change of the Command Link Unit that leaves ATTN as it is to be driven. -/
theorem withClu (s : State) {c : Clu} (hc : s.clu.attnDriven → c.attnDriven) : LinesKept once s { s with clu := c } :=
  ((State.LeavesLines.refl s).withClu hc).kept

theorem startHead (s : State) : LinesKept once s s.startHead := by
  unfold State.startHead
  split
  next f rest _ =>
    split
    · exact .refl s
    · refine trans ?_ (startFrame _ f)
      exact withClu s id
  next => exact .refl s

theorem startQueued (s : State) (k : Nat) : LinesKept once s (startQueued k s) := by
  induction k generalizing s with
  | zero => exact .refl s
  | succ k ih =>
    unfold Machine.startQueued
    split
    · exact .refl s
    · exact (startHead s).trans (ih _)

theorem receiveFrame (s : State) (bytes : List Byte) : LinesKept once s (s.receiveFrame bytes) := by
  unfold State.receiveFrame
  split
  · exact withClu s id
  · split_ifs
    · exact .refl s
    · exact withClu s id
    · split
      · unfold State.offerFrame
        split
        · refine trans ?_ (startQueued _ _)
          exact withClu s id
        · exact withClu s id
      · exact withClu s id

theorem endExchange (s : State) (x : Exchange) (mosi : List Byte) : LinesKept once s (s.endExchange x mosi) := by
  unfold State.endExchange
  dsimp only
  split
  · refine trans (trans ?_ (startQueued _ _)) (receiveFrame _ mosi)
    exact withClu s fun _ => rfl
  · refine trans ?_ (receiveFrame _ mosi)
    exact withClu s id

/-! ### The events of the lines -/

/-- A line begins to wait for extract space only with a request, and so while it is AWAITING ACCEPTANCE (R77). -/
theorem waitLine {n : Fin 4} {sub : Submission} (anew : Bool) (hr : (s.line n).request = some sub) :
    LinesKept once s (s.wait anew (.line n)) := by
  refine ⟨id, fun _ hg => ?_, fun _ _ => id⟩
  rw [State.linesGood_iff] at hg ⊢
  refine fun k => ⟨(hg k).1, fun hk => ?_⟩
  have hmem : k = n ∨ Waiter.line k ∈ s.pdu.waiters := by cases anew <;> simpa [State.wait, or_comm] using hk
  rcases hmem with rfl | hmem
  · exact Line.awaiting_of_request (hg k).1 hr
  · exact (hg k).2 hmem

/-- The acceptance of a line that has no place in the list ends in a reply, or in a place there (R91 to R95). -/
theorem acceptLine {n : Fin 4} (anew : Bool) (hw : once → Waiter.line n ∉ s.pdu.waiters) :
    LinesKept once s (s.acceptLine anew n) := by
  unfold State.acceptLine
  split
  next => exact .refl s
  next sub hr =>
    cases hacc : s.accept anew (.line n) (.line n) sub with
    | mk u a =>
      rcases (State.LeavesLines.refl s).accept hacc with ⟨rfl, rfl⟩ | ⟨hne, hu⟩
      · exact waitLine anew hr
      · have hline := State.line_congr s hu.lines n
        have replied : ∀ chars, chars ≠ [] → LinesKept once s (u.putLine n ((u.line n).sendReply chars)) := by
          refine fun chars hc => hu.kept.trans (.putLine ⟨fun _ => Line.exchangeGood_sendReply hc, ?_, ?_⟩)
          · exact fun ⟨ho, hwaits⟩ => absurd (hu.waiters n hwaits) (hw ho)
          · intro _ hg hs
            rw [hline] at hg hs
            rw [Line.awaiting_of_request hg hr] at hs; cases hs
        cases a with
        | waits => exact absurd rfl hne
        | refused => exact replied _ (by simp [refusedReply])
        | made => exact replied _ (by simp [acceptedReply])

/-- A line that goes DOWN leaves the list of waiters (R83). -/
theorem lineDown {n : Fin 4} (hs : (s.line n).state ≠ .disabled)
    (hw : once → Waiter.line n ∉ s.pdu.waiters.erase (.line n)) : LinesKept once s (s.lineDown n) := by
  have hdown : LinesKept once s
      (State.putLine { s with pdu := { s.pdu with waiters := s.pdu.waiters.erase (.line n) } } n
        (s.line n).goDown) := by
    refine trans ?_ (.putLine ⟨fun _ => Line.exchangeGood_goDown _, ?_, fun _ _ h => absurd h hs⟩)
    · refine State.LeavesLines.kept ⟨rfl, id, fun k => ?_, id⟩
      exact List.mem_of_mem_erase
    · exact fun ⟨ho, hwaits⟩ => absurd hwaits (hw ho)
  unfold State.lineDown
  dsimp only
  refine hdown.trans (State.LeavesLines.kept (State.LeavesLines.resumeSweep ?_))
  split
  · exact .refl _
  · exact (State.LeavesLines.refl _).raise _

theorem intakeCharacter {n : Fin 4} (data : Byte) (mark parity stop : Bool)
    (hw : once → Waiter.line n ∉ s.pdu.waiters.erase (.line n)) :
    LinesKept once s (s.intakeCharacter n data mark parity stop) := by
  by_cases hdisabled : (s.line n).state = .disabled
  · rw [State.intakeCharacter_disabled hdisabled]; exact .refl s
  by_cases hdown : (s.line n).state = .down
  · rw [State.intakeCharacter_down hdown]
    split
    · exact .refl s
    · refine trans (.putLine ?_) ((State.LeavesLines.refl _).raise _).kept
      exact .of_busy (fun h => Line.exchangeGood_recover h hdown) (by simp [hdown]) (by simp [hdown])
  · rw [State.intakeCharacter_busy hdisabled hdown]
    have hput : LinesKept once s (s.putLine n ((s.line n).received data mark parity stop)) :=
      .putLine (.of_congr (Line.received_state ..) (Line.exchangeGood_received ..))
    split
    · refine hput.trans (lineDown ?_ hw)
      rw [State.line_putLine_same, Line.drive_state, Line.received_state]
      exact hdisabled
    · exact hput

theorem countTick (s : State) : LinesKept once s s.countTick := by
  have hline : ∀ n, s.countTick.line n = (s.line n).countTick := Four.get_map Line.countTick s.lines
  refine .of_lines (fun n => ?_) (fun n => ?_) id (fun _ => id) id
  · rw [hline]; exact id
  · rw [hline]; exact .of_congr rfl rfl

theorem tickEvent (s : State) : LinesKept once s s.tickEvent := by
  unfold State.tickEvent
  split
  · exact (countTick s).trans (State.LeavesLines.refl _).advanceMinute.kept
  · refine (countTick s).trans (State.LeavesLines.kept ?_)
    exact (State.LeavesLines.refl _).congr rfl rfl rfl rfl

/-- The head of the list has its turn: a line found there has no other place (R164). -/
theorem waiterTurn (hw : once → ∀ n, s.pdu.waiters.count (.line n) ≤ 1) : LinesKept once s s.waiterTurn := by
  unfold State.waiterTurn
  split
  next => exact .refl s
  next w rest hlist =>
    split
    next =>
      have hleft : s.LeavesLines { s with pdu := { s.pdu with waiters := rest } } :=
        (State.LeavesLines.refl s).withWaiters rfl rfl rfl fun n hn => by rw [hlist]; exact List.mem_cons_of_mem w hn
      refine LinesKept.trans ?_ (State.LeavesLines.refl _).afterTraffic.kept
      by_cases hline : ∃ n, w = .line n
      · obtain ⟨n, rfl⟩ := hline
        refine hleft.kept.trans (acceptLine true fun ho => ?_)
        have hone := hw ho n
        rw [hlist, List.count_cons_self] at hone
        exact List.count_eq_zero.mp (Nat.le_zero.mp (Nat.le_of_succ_le_succ hone))
      · exact (hleft.takeAnew fun n hn => hline ⟨n, hn⟩).kept
    next => exact .refl s

/-! ### Every step -/

/-- Every event of the part keeps them. -/
theorem execEvent {i : Instr} (hi : i.commandCode.isSome = false) (ht : Machine.exec i s = .next t) :
    LinesKept (s.waitersOnce = true) s t := by
  have h := State.LeavesLines.refl s
  have either : ∀ {c : Prop} [Decidable c] {u : State}, (c → LinesKept (s.waitersOnce = true) s u) →
      LinesKept (s.waitersOnce = true) s (if c then u else s) := by
    intro c _ u hu; split
    · exact hu ‹_›
    · exact .refl s
  cases i <;> cases hi <;> cases ht
  case hardwareReset => exact ⟨fun _ => rfl, fun _ _ => rfl, fun _ _ _ => rfl⟩
  case exchangeBegin => exact either fun _ => withClu s id
  case statusByteReadOut => exact h.readOutStatus.kept
  case exchangeEnd mosi =>
    cases hx : s.clu.exchange with
    | none => exact .refl s
    | some x => exact endExchange s x mosi
  case commandStart => exact startHead s
  case formatCompletion => exact either fun _ => h.completeFormat.kept
  case flushWalkStep => exact either fun _ => (h.flushStep false).afterTraffic.kept
  case intakeCharacterReceived => exact intakeCharacter _ _ _ _ fun ho => State.not_mem_erase_line ho _
  case characterTaken => exact either fun _ => .putLine (.takeCharacter _)
  case interCharacterTimerExpiry =>
    exact either fun ⟨hs, _⟩ =>
      .putLine (.of_busy (fun _ => Line.exchangeGood_endExchange _) (by simp [hs]) (by simp [hs]))
  case pollSent n =>
    dsimp only
    split
    · exact .refl s
    · exact .putLine (.of_congr rfl rfl)
  case stationWaitExpiry =>
    exact either fun _ => .putLine (.of_congr (Line.moveOn_state _) (Line.exchangeGood_moveOn _))
  case replyComplete =>
    exact either fun hc => .putLine (.of_busy (fun _ => Line.exchangeGood_endExchange _) (by simp [hc]) (by simp [hc]))
  case acceptance n =>
    refine either fun hc => trans (acceptLine false fun _ => ?_) (State.LeavesLines.refl _).afterTraffic.kept
    rw [← State.lineWaits_iff, hc.2]
    exact Bool.false_ne_true
  case arbiterTake => exact either fun _ => (h.take false).afterTraffic.kept
  case moveToSending => exact either fun _ => (h.congr (by simp) (by simp) (by simp) (by simp)).afterTraffic.kept
  case frameCompletion => exact either fun _ => (h.completeFrame false).afterTraffic.kept
  case readyChange =>
    refine State.LeavesLines.kept (State.LeavesLines.afterTraffic ?_)
    exact h.congr rfl rfl rfl rfl
  case rejectRise =>
    refine State.LeavesLines.kept ?_
    exact h.congr rfl rfl rfl rfl
  case eholdChange =>
    refine State.LeavesLines.kept (State.LeavesLines.afterTraffic ?_)
    exact h.congr rfl rfl rfl rfl
  case zoneStatusChange =>
    refine State.LeavesLines.kept (State.LeavesLines.afterTraffic ?_)
    exact h.congr rfl rfl rfl rfl
  case returnCharacterReceived => exact (h.returnCharacter ..).kept
  case reportTimeout => exact either fun hc => (h.timeOutReport hc).kept
  case reportTaken => exact either fun _ => (h.takeReport false _).afterTraffic.kept
  case expiry => exact either fun _ => (h.expire false).afterTraffic.kept
  case tick => exact tickEvent s
  case minuteAdvance => exact either fun _ => (countTick s).trans (State.LeavesLines.refl _).advanceMinute.kept
  case sweepVisit => exact either fun _ => h.sweepVisit.kept
  case extractWaiterTurn => exact waiterTurn State.waitersOnce_line

/-- Every command of the table keeps them. -/
theorem exec {i : Instr} (ht : Machine.exec i s = .next t) : LinesKept (s.waitersOnce = true) s t := by
  cases hi : i.commandCode.isSome with
  | false => exact execEvent hi ht
  | true =>
    rw [exec_of_host s hi] at ht
    cases ht
    exact startHost s i

theorem step (ht : Machine.step s = .next t) : LinesKept (s.waitersOnce = true) s t := by
  unfold Machine.step at ht
  split at ht
  next => cases ht; exact .refl s
  next i rest _ =>
    have hexec : LinesKept (s.waitersOnce = true) { s with pending := rest } t := exec ht
    exact ⟨hexec.driven, hexec.good, hexec.shared⟩

end State.LinesKept

end

/-- Settles O7: the three properties are one relation between the states before and after, `State.LinesKept`, which
every row of the command table meets. -/
theorem stepKeepsPins : Obligations.StepKeepsPins := by
  intro s t hstep
  have h := State.LinesKept.step hstep
  exact ⟨h.driven, fun hg ho => ⟨h.good ho hg, h.shared ho hg⟩⟩

end Sys2Proof.Machine
end


section
namespace Sys2Proof.Machine
open Sys2Proof

/-! ## SET LINE -/

section
variable {s : State} {tag : Byte} {a : LineArgs} {l : Line} {n : Fin 4}

/-! ### The codes and the stations -/

theorem lineOf_eq {code : Byte} (h : code.toNat = n.val) : lineOf code = some n := by
  have hlt : code.toNat < 4 := h ▸ n.isLt
  rw [lineOf, dif_pos hlt]
  exact congrArg some (Fin.ext h)

theorem lineOf_eq_none {code : Byte} (h : 4 ≤ code.toNat) : lineOf code = none := dif_neg (not_lt.mpr h)

theorem lineModeOf_eq_none {code : Byte} (h : 1 < code.toNat) : lineModeOf code = none := by
  unfold lineModeOf
  rw [if_neg, if_neg] <;> rintro rfl <;> simp at h

theorem parityOf_eq_none {code : Byte} (h : 2 < code.toNat) : parityOf code = none := by
  unfold parityOf
  rw [if_neg, if_neg, if_neg] <;> rintro rfl <;> simp at h

/-- The stations of a POLLED line as the command carries them: 1 to 8, each 1 to 31, none twice (R98). -/
theorem stationsGood_map_iff (stations : List Byte) : stationsGood (stations.map fun b => b.toNat) = true ↔
    stations ≠ [] ∧ stations.length ≤ 8 ∧ (∀ x ∈ stations, 1 ≤ x.toNat ∧ x.toNat ≤ 31) ∧ stations.Nodup := by
  have hinj : Function.Injective fun b : Byte => b.toNat := fun _ _ => BitVec.eq_of_toNat_eq
  simp [stationsGood, List.nodup_map_iff hinj, Nat.one_le_iff_ne_zero, and_assoc]

theorem stationsGood_map_eq_false (stations : List Byte) : stationsGood (stations.map fun b => b.toNat) = false ↔
    stations = [] ∨ 8 < stations.length ∨ (∃ x ∈ stations, x = 0 ∨ 31 < x.toNat) ∨ ¬ stations.Nodup := by
  have hzero : ∀ x : Byte, x = 0 ↔ x.toNat = 0 := fun x => byte_eq_iff (by decide)
  have hrange : (∃ x ∈ stations, x = 0 ∨ 31 < x.toNat) ↔ ¬ ∀ x ∈ stations, 1 ≤ x.toNat ∧ x.toNat ≤ 31 := by
    simp only [hzero]; push Not; grind
  rw [← Bool.not_eq_true, stationsGood_map_iff, hrange]
  simp only [not_and_or, ne_eq, not_not, not_le]

/-! ### The settings -/

theorem lineSettings_out_of_range (h : 1 < a.mode.toNat ∨ 2 < a.parity.toNat ∨ 4095 < a.n.toNat ∨ 1 < a.e.toNat ∨
      a.stop.toNat = 0 ∨ 2 < a.stop.toNat ∨ a.wait.toNat < 2 ∨ 25 < a.wait.toNat ∨
      (a.mode = 1 ∧ (a.stations = [] ∨ 8 < a.stations.length ∨ (∃ x ∈ a.stations, x = 0 ∨ 31 < x.toNat) ∨
        ¬ a.stations.Nodup))) : lineSettings a l = none := by
  unfold lineSettings
  split
  next mode parity hmode hparity =>
    have hm : ¬ 1 < a.mode.toNat := fun hlt => by rw [lineModeOf_eq_none hlt] at hmode; cases hmode
    have hp : ¬ 2 < a.parity.toNat := fun hlt => by rw [parityOf_eq_none hlt] at hparity; cases hparity
    have hpolled : a.mode = 1 → mode = .polled := fun h1 => by rw [h1] at hmode; cases hmode; rfl
    rw [← Nat.lt_one_iff, ← stationsGood_map_eq_false] at h
    exact if_pos (((h.resolve_left hm).resolve_left hp).imp_right <| .imp_right <| .imp_right <| .imp_right <|
      .imp_right <| .imp_right <| .imp_left hpolled)
  next => rfl

theorem lineSettings_in_range {mode : LineMode} {p : Parity} (hmode : lineModeOf a.mode = some mode)
    (hparity : parityOf a.parity = some p) (hn : a.n.toNat ≤ 4095) (he : a.e.toNat ≤ 1)
    (hstop : a.stop = 1 ∨ a.stop = 2) (hmin : 2 ≤ a.wait.toNat) (hmax : a.wait.toNat ≤ 25)
    (hstations : mode = .polled → stationsGood (a.stations.map fun b => b.toNat) = true) :
    lineSettings a l = some { l with
      mode, n := a.n.toNat, e := a.e.toNat, parity := p, stop := a.stop.toNat, current := 0
      stations := if mode = .polled then a.stations.map (fun b => b.toNat) else []
      wait := if mode = .polled then a.wait.toNat else l.wait } := by
  have hstop : 1 ≤ a.stop.toNat ∧ a.stop.toNat ≤ 2 := by rcases hstop with h | h <;> simp [h]
  simp only [lineSettings, hmode, hparity]
  rw [if_neg]
  · split <;> rfl
  · rintro (h | h | h | h | h | h | ⟨h, hbad⟩)
    · omega
    · omega
    · omega
    · omega
    · omega
    · omega
    · rw [hstations h] at hbad; cases hbad

/-! ### What a SET LINE answers -/

theorem takeSetLine_out_of_range (h : 4 ≤ a.line.toNat ∨ ∀ n, lineSettings a (s.line n) = none) :
    takeSetLine a s = (s, .now .badField []) := by
  unfold takeSetLine
  split
  next => rfl
  next n hline =>
    rcases h with h | h
    · rw [lineOf_eq_none h] at hline; cases hline
    · rw [h n]

theorem takeSetLine_active (hline : a.line.toNat = n.val) (hl : lineSettings a (s.line n) = some l)
    (hs : (s.line n).state ≠ .disabled) : takeSetLine a s = (s, .now .lineActive []) := by
  simp [takeSetLine, lineOf_eq hline, hl, Line.active, hs]

theorem takeSetLine_disabled (hline : a.line.toNat = n.val) (hl : lineSettings a (s.line n) = some l)
    (hs : (s.line n).state = .disabled) : takeSetLine a s = (s.putLine n l, .now .ok []) := by
  simp [takeSetLine, lineOf_eq hline, hl, Line.active, hs]

theorem exec_setLine {t : State} {why : Result} {params : List Byte} (hfull : s.responseFull = false)
    (ht : takeSetLine a s = (t, .now why params)) :
    exec (.setLine tag a) s = .next (t.respond ⟨0x40, tag, why, params⟩) :=
  congrArg Host.Outcome.next (State.start_now hfull ht)

end

/-- Settles O34: the ranges are `lineSettings_out_of_range`, and the settings written `lineSettings_in_range`. -/
theorem setLineSettings : Obligations.SetLineSettings := by
  intro tag a s hfull
  refine ⟨fun hrange => exec_setLine hfull (takeSetLine_out_of_range ?_), ?_⟩
  · exact hrange.imp_right fun h n => lineSettings_out_of_range h
  · intro n p hline hparity hn he hstop hmin hmax hstations
    have hsettings : ∀ mode, lineModeOf a.mode = some mode → _ := fun mode hmode =>
      lineSettings_in_range (l := s.line n) hmode hparity hn he hstop hmin hmax fun hpolled => by
        rcases hstations with h | ⟨-, hgood⟩
        · rw [h] at hmode; cases hmode; cases hpolled
        · exact (stationsGood_map_iff _).mpr hgood
    refine ⟨fun hs => ?_, fun hs hmode => ?_, fun hs hmode => ?_⟩
    · obtain ⟨mode, hmode⟩ : ∃ mode, lineModeOf a.mode = some mode := by
        rcases hstations with h | ⟨h, -⟩ <;> rw [h]
        · exact ⟨.direct, rfl⟩
        · exact ⟨.polled, rfl⟩
      exact exec_setLine hfull (takeSetLine_active hline (hsettings mode hmode) hs)
    · exact exec_setLine hfull (takeSetLine_disabled hline (hsettings .direct (by rw [hmode]; rfl)) hs)
    · exact exec_setLine hfull (takeSetLine_disabled hline (hsettings .polled (by rw [hmode]; rfl)) hs)

end Sys2Proof.Machine
end


section
namespace Sys2Proof.Machine
open Sys2Proof

/-! ## INTAKE_CHARACTER_RECEIVED -/

/-! ### The bits of a character -/

section
variable {l : Line} {data : Byte} {mark parity stop : Bool} {rest : List Bool}

/-- What the line samples of the bits that its format has, bit by bit (R79). -/
theorem Line.sampled_format (l : Line) (data : Byte) (mark parity stop : Bool) (rest : List Bool) :
    l.sampled (false :: (lsbFirst data ++ ((if l.mode = .polled then [mark] else []) ++
        ((if l.parity = .none then [] else [parity]) ++ stop :: rest)))) =
      some ⟨data, decide (l.mode = .polled) && mark, decide (l.parity ≠ .none) && parity, stop⟩ := by
  rw [Line.sampled, sampleCharacter_lsbFirst]
  cases hm : l.mode <;> cases hp : l.parity <;> rfl

/-- The parity bit that the line sends is none exactly with parity NONE. -/
theorem parityBit_toList (p : Parity) (data : Byte) (mark : Option Bool) :
    (parityBit p data mark).toList = if p = .none then [] else [(parityBit p data mark).getD false] := by
  cases p <;> rfl

/-- The parity bit that the line sends is no parity error (R79). -/
theorem parityError_parityBit (p : Parity) (data : Byte) (mark : Option Bool) :
    parityError p data mark (decide (p ≠ .none) && (parityBit p data mark).getD false) = false := by
  cases p <;> simp [parityError, parityBit]

/-- A character in the form the line sends is sampled as it was sent (R79). -/
theorem Line.sampled_characterBits (mark : Bool) (rest : List Bool) (h : 1 ≤ l.stop) :
    l.sampled (l.characterBits data mark ++ rest) = some ⟨data, decide (l.mode = .polled) && mark,
      decide (l.parity ≠ .none) &&
        (parityBit l.parity data (if l.mode = .polled then some mark else none)).getD false, true⟩ := by
  obtain ⟨k, hk⟩ : ∃ k, l.stop = k + 1 := ⟨l.stop - 1, by omega⟩
  have hmark : (if l.mode = .polled then some mark else none).toList = if l.mode = .polled then [mark] else [] := by
    split <;> rfl
  rw [← Line.sampled_format (rest := List.replicate k true ++ rest), Line.characterBits, hk, List.replicate_succ]
  simp only [parityBit_toList, hmark, List.append_assoc, List.cons_append, List.nil_append]

end

/-! ### What becomes of the line -/

section
variable {s : State} {n : Fin 4} {l : Line} {data : Byte} {mark parity stop : Bool}

theorem Line.badCharacter_eq (l : Line) (data : Byte) (mark parity stop : Bool) :
    l.badCharacter data mark parity stop =
      (!stop || parityError l.parity data (if l.mode = .polled then some mark else none) parity ||
        (decide (l.mode = .polled) && mark)) := by
  simp [Line.badCharacter, Bool.beq_eq_decide_eq]

/-- A character as the line sends it is bad only by its mark bit (R79, R81). -/
theorem Line.badCharacter_sent (l : Line) (data : Byte) (mark : Bool) :
    l.badCharacter data (decide (l.mode = .polled) && mark) (decide (l.parity ≠ .none) &&
      (parityBit l.parity data (if l.mode = .polled then some mark else none)).getD false) true =
      (decide (l.mode = .polled) && mark) := by
  have hmark : (if l.mode = .polled then some (decide (l.mode = .polled) && mark) else none) =
      if l.mode = .polled then some mark else none := by
    split
    next hpolled => simp [hpolled]
    next => rfl
  rw [Line.badCharacter_eq, hmark, parityError_parityBit]
  simp

theorem Line.runAfter_eq (l : Line) (data : Byte) (stop : Bool) :
    l.runAfter data stop = if stop = false ∧ data = 0 then l.breakRun + 1 else 0 := by
  simp [Line.runAfter]

theorem Line.received_room (h : l.fifo.length < 16) : l.received data mark parity stop =
    { l with fifo := l.fifo ++ [⟨data, l.badCharacter data mark parity stop, false⟩]
             breakRun := l.runAfter data stop } := by
  have hreceive : l.receive data (l.badCharacter data mark parity stop) = _ := if_pos h
  rw [Line.received, hreceive]

theorem markGap_append (front : List RxChar) (last : RxChar) :
    markGap (front ++ [last]) = front ++ [{ last with gap := true }] := by
  induction front with
  | nil => rfl
  | cons c front ih =>
    cases front with
    | nil => rfl
    | cons d front => exact congrArg (c :: ·) ih

theorem Line.received_overrun {front : List RxChar} {last : RxChar} (hl : l.fifo = front ++ [last])
    (h : 16 ≤ l.fifo.length) : l.received data mark parity stop =
      { l with fifo := front ++ [{ last with gap := true }], breakRun := l.runAfter data stop } := by
  have hreceive : l.receive data (l.badCharacter data mark parity stop) = _ := if_neg (not_lt.mpr h)
  rw [Line.received, hreceive, hl, markGap_append]

theorem Line.received_disablePending (l : Line) :
    (l.received data mark parity stop).disablePending = l.disablePending := by
  unfold Line.received Line.receive; split <;> rfl

/-- A line that goes DOWN, or DISABLED by its mark, has nothing left in hand (R83). -/
theorem Line.goDown_cleared (l : Line) : l.goDown.state = (if l.disablePending then .disabled else .down) ∧
    l.goDown.fifo = [] ∧ l.goDown.frame = none ∧ l.goDown.request = none ∧ l.goDown.reply = [] ∧
    l.goDown.interTimer = none ∧ l.goDown.stationTimer = none ∧ l.goDown.breakRun = 0 ∧
    l.goDown.disablePending = false := by
  unfold Line.goDown
  split
  next => exact ⟨rfl, rfl, rfl, rfl, rfl, rfl, rfl, rfl, rfl⟩
  next hpending => exact ⟨rfl, rfl, rfl, rfl, rfl, rfl, rfl, rfl, Bool.eq_false_iff.mpr hpending⟩

/-- RDY is high on a line that is DOWN, its FIFO empty (R80, R83). -/
theorem Line.goDown_rdy (l : Line) : l.goDown.drive.rdy = !l.disablePending := by
  obtain ⟨hstate, hfifo, -⟩ := l.goDown_cleared
  have hrdy : l.goDown.drive.rdy =
      (decide (l.goDown.state ≠ .disabled) && decide (l.goDown.fifo.length < Config.rdyLimit)) := rfl
  rw [hrdy, hstate, hfifo]
  cases l.disablePending <;> rfl

/-! ### Going DOWN -/

theorem State.raise_clu_congr {t : State} (hclu : t.clu = s.clu) (htick : t.pdu.tick = s.pdu.tick) (k : NoticeKind) :
    (t.raise k).clu = (s.raise k).clu := by
  unfold State.raise
  rw [hclu, htick]
  split <;> rfl

@[simp] theorem State.resumeSweep_waiters (s : State) : s.resumeSweep.pdu.waiters = s.pdu.waiters := by
  unfold State.resumeSweep; split <;> rfl

@[simp] theorem State.resumeSweep_extract (s : State) : s.resumeSweep.pdu.extract = s.pdu.extract := by
  unfold State.resumeSweep; split <;> rfl

theorem State.lineDown_pdu (s : State) (n : Fin 4) : (s.lineDown n).pdu.waiters = s.pdu.waiters.erase (.line n) ∧
    (s.lineDown n).pdu.extract = s.pdu.extract := by
  unfold State.lineDown
  dsimp only
  rw [State.resumeSweep_waiters, State.resumeSweep_extract]
  split <;> simp

theorem State.lineDown_lines (s : State) (n : Fin 4) :
    (s.lineDown n).lines = (s.putLine n (s.line n).goDown).lines := by
  unfold State.lineDown
  dsimp only
  rw [State.resumeSweep_lines]
  split
  · rfl
  · rw [State.raise_lines]; rfl

theorem State.lineDown_clu (s : State) (n : Fin 4) :
    (s.lineDown n).clu = if (s.line n).disablePending then s.clu else (s.raise (.lineDown n)).clu := by
  unfold State.lineDown
  dsimp only
  rw [State.resumeSweep_clu]
  split
  · rfl
  · refine State.raise_clu_congr ?_ ?_ _ <;> rfl

/-- The third break in a row, from the state in which the break has entered the FIFO (R83). -/
theorem State.lineDown_putLine (s : State) (n : Fin 4) (l : Line) :
    ((s.putLine n l).lineDown n).line n = l.drive.goDown.drive ∧
    (∀ k, k ≠ n → ((s.putLine n l).lineDown n).line k = s.line k) ∧
    ((s.putLine n l).lineDown n).clu = if l.disablePending then s.clu else (s.raise (.lineDown n)).clu := by
  have hlines := State.line_congr _ (State.lineDown_lines (s.putLine n l) n)
  refine ⟨?_, fun k hk => ?_, ?_⟩
  · rw [hlines, State.line_putLine_same, State.line_putLine_same]
  · rw [hlines, State.line_putLine_other _ _ hk, State.line_putLine_other _ _ hk]
  · rw [State.lineDown_clu, State.line_putLine_same, State.putLine_clu]
    exact congrArg (ite _ s.clu) (State.raise_clu_congr (State.putLine_clu ..) rfl _)

/-! ### The row INTAKE_CHARACTER_RECEIVED -/

theorem exec_intakeCharacterReceived_disabled (h : (s.line n).state = .disabled) :
    exec (.intakeCharacterReceived n data mark parity stop) s = .next s :=
  congrArg Host.Outcome.next (State.intakeCharacter_disabled h)

theorem exec_intakeCharacterReceived_down (h : (s.line n).state = .down) :
    exec (.intakeCharacterReceived n data mark parity stop) s =
      .next (if (s.line n).badCharacter data mark parity stop then s
        else (s.putLine n ((s.line n).recover data)).raise (.lineUp n)) :=
  congrArg Host.Outcome.next (State.intakeCharacter_down h)

theorem exec_intakeCharacterReceived_busy (hdisabled : (s.line n).state ≠ .disabled)
    (hdown : (s.line n).state ≠ .down) :
    exec (.intakeCharacterReceived n data mark parity stop) s =
      .next (if 3 ≤ (s.line n).runAfter data stop then
          (s.putLine n ((s.line n).received data mark parity stop)).lineDown n
        else s.putLine n ((s.line n).received data mark parity stop)) :=
  congrArg Host.Outcome.next (State.intakeCharacter_busy hdisabled hdown)

end

/-- Settles O36: the bits are `Line.sampled_format` and `Line.sampled_characterBits`; what becomes of the line is one
lemma for each of its states, and of a line that goes DOWN `Line.goDown_cleared`. -/
theorem characterReception : Obligations.CharacterReception := by
  refine ⟨fun l bits => rfl, fun l data mark parity stop rest => ?_, fun l data mark rest hstop => ?_, ?_⟩
  · rw [← Line.sampled_format, lsbFirst, List.append_assoc, List.append_assoc]
  · exact ⟨_, Line.sampled_characterBits mark rest hstop, rfl, Line.badCharacter_sent l data mark⟩
  rintro n data mark parity stop s l bad run rfl hbad hrun
  rw [← Line.badCharacter_eq] at hbad
  rw [← Line.runAfter_eq] at hrun
  subst hbad hrun
  refine ⟨exec_intakeCharacterReceived_disabled, fun hdown hbad => ?_, fun hdown hbad => ?_,
    fun hdisabled hdown hrun => ⟨fun hroom => ?_, fun front last hfifo hfull => ?_⟩, fun hdisabled hdown hrun => ?_⟩
  · rw [exec_intakeCharacterReceived_down hdown, if_pos hbad]
  · rw [exec_intakeCharacterReceived_down hdown, if_neg (by rw [hbad]; exact Bool.false_ne_true)]; rfl
  · rw [exec_intakeCharacterReceived_busy hdisabled hdown, if_neg (not_le.mpr hrun), Line.received_room hroom]
  · rw [exec_intakeCharacterReceived_busy hdisabled hdown, if_neg (not_le.mpr hrun), Line.received_overrun hfifo hfull]
  · rw [exec_intakeCharacterReceived_busy hdisabled hdown, if_pos hrun]
    obtain ⟨hline, hothers, hclu⟩ := State.lineDown_putLine s n ((s.line n).received data mark parity stop)
    obtain ⟨hwaiters, hextract⟩ := State.lineDown_pdu (s.putLine n ((s.line n).received data mark parity stop)) n
    obtain ⟨hstate, hfifo, hframe, hrequest, hreply, hinter, hstation, hbreaks, hpending⟩ :=
      Line.goDown_cleared ((s.line n).received data mark parity stop).drive
    have hmark : ((s.line n).received data mark parity stop).drive.disablePending = (s.line n).disablePending :=
      Line.received_disablePending _
    rw [hmark] at hstate
    rw [Line.received_disablePending] at hclu
    refine ⟨_, rfl, hwaiters, hextract, hothers, fun h => ⟨?_, ?_⟩, fun h => ⟨?_, ?_⟩, ?_⟩
    · rw [hline, Line.drive_state, hstate, h]; rfl
    · rw [hclu, h]; rfl
    · rw [hline, Line.drive_state, hstate, h]; rfl
    · rw [hclu, h]; rfl
    rw [hline]
    refine ⟨hfifo, hframe, hrequest, hreply, hinter, hstation, hbreaks, hpending, ?_, by simp, by simp, by simp,
      by simp, by simp, by simp, by simp⟩
    rw [Line.goDown_rdy, hmark]

end Sys2Proof.Machine
end


section
namespace Sys2Proof.Machine
open Sys2Proof

/-! ## ACCEPTANCE and SUBMIT -/

/-! ### The acceptance of a line's request -/

section
variable {s t : State} {n : Fin 4} {sub : Submission}

theorem exec_acceptance_idle (h : (s.line n).state ≠ .awaitingAcceptance ∨ Waiter.line n ∈ s.pdu.waiters) :
    exec (.acceptance n) s = .next s := by
  refine congrArg Host.Outcome.next (if_neg fun ⟨hstate, hwaits⟩ => ?_)
  rcases h with h | h
  · exact h hstate
  · rw [(State.lineWaits_iff s).mpr h] at hwaits; cases hwaits

theorem exec_acceptance_due (hstate : (s.line n).state = .awaitingAcceptance) (hw : Waiter.line n ∉ s.pdu.waiters)
    (ht : s.acceptLine false n = t) : exec (.acceptance n) s = .next t.afterTraffic := by
  subst ht
  refine congrArg Host.Outcome.next (if_pos ⟨hstate, ?_⟩)
  rwa [← Bool.not_eq_true, State.lineWaits_iff]

/-- The line once the outcome of its acceptance is known: it waits, or it sends its reply (R93, R95). -/
def State.replyLine (t : State) (n : Fin 4) : Acceptance → State
  | .waits => t
  | .refused why _ => t.putLine n ((t.line n).sendReply (refusedReply (refusalLetter why)))
  | .made slot _ _ _ => t.putLine n ((t.line n).sendReply (acceptedReply (t.reference slot)))

theorem State.acceptLine_eq {anew : Bool} {a : Acceptance} (hr : (s.line n).request = some sub)
    (ha : s.accept anew (.line n) (.line n) sub = (t, a)) : s.acceptLine anew n = t.replyLine n a := by
  rw [State.acceptLine, hr]
  dsimp only
  rw [ha]
  cases a <;> rfl

end

/-! ### SUBMIT -/

section
variable {s t : State} {tag : Byte} {a : SubmitArgs}

theorem priorityOf_eq_none {code : Byte} (h : 2 < code.toNat) : priorityOf code = none := by
  unfold priorityOf
  rw [if_neg, if_neg, if_neg] <;> rintro rfl <;> simp at h

theorem numberInRange_eq_false {number : BitVec 24} :
    numberInRange number = false ↔ number.toNat = 0 ∨ 9999999 < number.toNat := by
  rw [numberInRange, Bool.and_eq_false_iff, decide_eq_false_iff_not, decide_eq_false_iff_not, Config.numberMax]
  omega

theorem takeSubmit_out_of_range {anew : Bool} {place : Nat} (h : a.number.toNat = 0 ∨ 9999999 < a.number.toNat ∨
    2 < a.priority.toNat ∨ 80 < a.body.length) : takeSubmit anew place a s = (s, .now .badField []) := by
  unfold takeSubmit
  split
  next => rfl
  next p hp =>
    have hpriority : ¬ 2 < a.priority.toNat := fun hlt => by rw [priorityOf_eq_none hlt] at hp; cases hp
    refine if_pos ?_
    rw [numberInRange_eq_false, or_assoc]
    exact h.imp_right (.imp_right fun h => h.resolve_left hpriority)

/-- What SUBMIT answers by the outcome of its acceptance (R103). -/
def State.submitReply (t : State) : Acceptance → Reply
  | .refused why figures => .now why figures
  | .waits => .later
  | .made n i c held => .now .ok (nat2 (t.reference n) ++ nat2 c ++ nat2 i ++ nat1 (placementCode held))

theorem takeSubmit_eq {anew : Bool} {place : Nat} {p : Priority} {outcome : Acceptance} (hlow : 1 ≤ a.number.toNat)
    (hhigh : a.number.toNat ≤ 9999999) (hp : priorityOf a.priority = some p) (hbody : a.body.length ≤ 80)
    (hacc : s.accept anew (.command place (.submit a)) .commandLink ⟨a.number.toNat, p, a.body⟩ = (t, outcome)) :
    takeSubmit anew place a s = (t, t.submitReply outcome) := by
  have hrange : ¬ (numberInRange a.number = false ∨ Config.bodyLimit < a.body.length) := by
    rw [numberInRange_eq_false, Config.bodyLimit]; omega
  rw [takeSubmit, hp]
  dsimp only
  rw [if_neg hrange, hacc]
  cases outcome <;> rfl

theorem exec_submit_now {why : Result} {params : List Byte} (hfull : s.responseFull = false)
    (ht : takeSubmit false s.freshPlace a s = (t, .now why params)) :
    exec (.submit tag a) s = .next (t.respond ⟨0x44, tag, why, params⟩).afterTraffic := by
  refine congrArg Host.Outcome.next ((if_neg (by simp [hfull])).trans ?_)
  rw [State.start_now hfull ht]

theorem exec_submit_later (hfull : s.responseFull = false) (ht : takeSubmit false s.freshPlace a s = (t, .later)) :
    exec (.submit tag a) s = .next (State.afterTraffic { t with clu := { t.clu with
      inProgress := t.clu.inProgress ++ [⟨s.freshPlace, 0x44, tag⟩] } }) := by
  refine congrArg Host.Outcome.next ((if_neg (by simp [hfull])).trans ?_)
  rw [State.start_later hfull ht]

theorem nat1_placementCode (held : Bool) : nat1 (placementCode held) = if held then [5] else [1] := by
  cases held <;> rfl

end

/-! ### The characters of a reply -/

theorem digits5_eq {n : Nat} (h : n < 65536) : digits5 n = [BitVec.ofNat 8 (0x30 + n / 10000),
    BitVec.ofNat 8 (0x30 + n / 1000 % 10), BitVec.ofNat 8 (0x30 + n / 100 % 10), BitVec.ofNat 8 (0x30 + n / 10 % 10),
    BitVec.ofNat 8 (0x30 + n % 10)] := by
  have hfirst : n / 10000 % 10 = n / 10000 := Nat.mod_eq_of_lt (by omega)
  simp [digits5, hfirst]

/-- A character of a reply, its mark bit clear on a POLLED line (R79). -/
theorem Line.characterBits_clear (l : Line) (c : Byte) : l.characterBits c false =
    false :: ((List.range 8).map (fun i => c.getLsbD i) ++ (if l.mode = .polled then [false] else []) ++
      (match l.parity with
        | .none => []
        | .even => [decide (onesOf c % 2 = 1)]
        | .odd => [decide (onesOf c % 2 = 0)]) ++ List.replicate l.stop true) := by
  rw [Line.characterBits, ← lsbFirst]
  cases l.mode <;> cases l.parity <;> simp [parityBit]

/-- Settles O41: the acceptance of a line's request ends by `State.acceptLine_eq`, and that of a SUBMIT by
`takeSubmit_eq`. -/
theorem acceptanceReplies : Obligations.AcceptanceReplies := by
  refine ⟨fun n s => ⟨exec_acceptance_idle, fun sub hstate hw hr => ?_⟩, fun tag a s hfull => ⟨fun h => ?_, ?_⟩,
    fun n => digits5_eq, ⟨rfl, rfl, rfl, rfl, rfl, rfl, rfl, rfl⟩, fun l ones hones => ?_⟩
  · have hexec : ∀ {t a}, s.accept false (.line n) (.line n) sub = (t, a) → _ := fun ha =>
      exec_acceptance_due hstate hw (State.acceptLine_eq hr ha)
    exact ⟨fun t why figures => hexec, fun t => hexec, fun t slot i c held => hexec⟩
  · exact exec_submit_now hfull (takeSubmit_out_of_range h)
  · rintro p w sub hlow hhigh hp hbody rfl rfl
    refine ⟨fun t why figures hacc => ?_, fun t hacc => ?_, fun t slot i c held hacc => ?_⟩
    · exact exec_submit_now hfull (takeSubmit_eq hlow hhigh hp hbody hacc)
    · exact exec_submit_later hfull (takeSubmit_eq hlow hhigh hp hbody hacc)
    · rw [← nat1_placementCode]
      exact exec_submit_now hfull (takeSubmit_eq hlow hhigh hp hbody hacc)
  · obtain rfl : ones = onesOf := funext hones
    rw [Line.replyBits]
    exact congrArg (l.reply.flatMap ·) (funext l.characterBits_clear)

end Sys2Proof.Machine
end


section
namespace Sys2Proof.Machine
open Sys2Proof

/-! ## Zones -/

/-! ### When a zone is live -/

/-- The set of the zones below `k`, of which `p` holds, built one zone after another. -/
theorem getLsbD_foldl_zones (p : Nat → Bool) {k z : Nat} (hk : k ≤ 16) :
    ((List.range k).foldl (fun acc z => if p z then acc ||| (1#16 <<< z) else acc) (0 : ZoneSet)).getLsbD z =
      (decide (z < k) && p z) := by
  induction k with
  | zero => simp
  | succ k ih =>
    have hbit : (1#16 <<< k).getLsbD z = decide (z = k) := by
      rw [BitVec.getLsbD_shiftLeft, BitVec.getLsbD_one]
      by_cases hz : z = k
      · subst hz; simp; omega
      · simp [hz]; omega
    rw [List.range_succ, List.foldl_append, List.foldl_cons, List.foldl_nil]
    by_cases hp : p k = true
    · rw [if_pos hp, BitVec.getLsbD_or, ih (by omega), hbit]
      by_cases hz : z = k
      · subst hz; simp [hp]
      · simp [hz, show z < k + 1 ↔ z < k by omega]
    · rw [if_neg hp, ih (by omega)]
      by_cases hz : z = k
      · subst hz; simp [hp]
      · simp [show z < k + 1 ↔ z < k by omega]

theorem getLsbD_zonesWhere (p : Nat → Bool) {z : Nat} (hz : z < 16) : (zonesWhere p).getLsbD z = p z := by
  rw [zonesWhere, getLsbD_foldl_zones p le_rfl, decide_eq_true hz, Bool.true_and]

/-- A zone is in the live set when it is live (R106, R113). -/
theorem State.getLsbD_liveZones (s : State) {z : Nat} (hz : z < 16) : s.liveZones.getLsbD z = s.zoneLive z :=
  getLsbD_zonesWhere _ hz

theorem State.zoneLive_eq (s : State) (z : Nat) : s.zoneLive z = (s.dsu.service.getLsbD z &&
    (decide (s.dsu.overrides.getD z .follow = .forceIn) ||
      (decide (s.dsu.overrides.getD z .follow = .follow) && s.pins.zst.getLsbD z))) := by
  rw [State.zoneLive]
  cases s.dsu.overrides.getD z .follow <;> simp

/-! ### SET ZONES, SET OVERRIDE and ZONE STATUS -/

theorem overrideOf_eq_none {value : Byte} (h : 2 < value.toNat) : overrideOf value = none := by
  unfold overrideOf
  rw [if_neg, if_neg, if_neg] <;> rintro rfl <;> simp at h

/-- The overrides of the zones of the set are written, those of the others kept (R114). -/
theorem setOverrides_getElem? (overrides : List Override) (zones : ZoneSet) (v : Override) {z : Nat}
    (hz : z < overrides.length) :
    (setOverrides overrides zones v)[z]? = if zones.getLsbD z then some v else overrides[z]? := by
  simp only [setOverrides, List.getElem?_map, List.getElem?_zipIdx, Nat.zero_add, List.getElem?_eq_getElem hz,
    Option.map_some]
  split <;> rfl

theorem setOverrides_length (overrides : List Override) (zones : ZoneSet) (v : Override) :
    (setOverrides overrides zones v).length = overrides.length := by simp [setOverrides]

section
variable {s t : State} {tag : Byte} {code : Byte} {take : Nat → State → State × Reply} {why : Result}
  {params : List Byte}

/-- A command that touches traffic, answered in the event of its start (R176). -/
theorem State.startTraffic_now (hfull : s.responseFull = false) (ht : take s.freshPlace s = (t, .now why params)) :
    s.startTraffic code tag take = (t.respond ⟨code, tag, why, params⟩).afterTraffic := by
  rw [State.startTraffic, hfull, State.start_now hfull ht]
  rfl

theorem exec_setOverride (hfull : s.responseFull = false) {zones : ZoneSet} {value : Byte}
    (ht : takeSetOverride zones value s = (t, .now why params)) :
    exec (.setOverride tag zones value) s = .next (t.respond ⟨0x51, tag, why, params⟩).afterTraffic :=
  congrArg Host.Outcome.next (State.startTraffic_now (take := fun _ => takeSetOverride zones value) hfull ht)

theorem takeSetOverride_eq {zones : ZoneSet} {value : Byte} {v : Override} (hv : overrideOf value = some v)
    (ht : t = { s with dsu := { s.dsu with overrides := setOverrides s.dsu.overrides zones v } }) :
    takeSetOverride zones value s = (t, .now .ok (bytes2 t.liveZones)) := by
  subst ht
  simp [takeSetOverride, hv]

/-- ZONE STATUS with the live bit of each zone read from the live set (R115). -/
theorem takeZoneStatus_eq (s : State) : takeZoneStatus s = (s, .now .ok
    ([16] ++ (List.range 16).flatMap (fun z => flag1 (s.pins.zst.getLsbD z) ++
      nat1 (s.dsu.overrides.getD z .follow).code ++ flag1 (s.dsu.service.getLsbD z) ++ flag1 (s.liveZones.getLsbD z)) ++
    bytes2 s.dsu.service ++ bytes2 s.liveZones ++ flag1 s.dsu.outage)) := by
  have hlist : (List.range 16).flatMap (fun z => flag1 (s.pins.zst.getLsbD z) ++
      nat1 (s.dsu.overrides.getD z .follow).code ++ flag1 (s.dsu.service.getLsbD z) ++ flag1 (s.zoneLive z)) =
      (List.range 16).flatMap (fun z => flag1 (s.pins.zst.getLsbD z) ++
      nat1 (s.dsu.overrides.getD z .follow).code ++ flag1 (s.dsu.service.getLsbD z) ++ flag1 (s.liveZones.getLsbD z)) :=
    List.flatMap_congr fun z hz => by rw [s.getLsbD_liveZones (List.mem_range.mp hz)]
  rw [takeZoneStatus, hlist]
  rfl

theorem exec_zoneStatus (hfull : s.responseFull = false) (ht : takeZoneStatus s = (t, .now why params)) :
    exec (.zoneStatus tag) s = .next (t.respond ⟨0x52, tag, why, params⟩) :=
  congrArg Host.Outcome.next (State.start_now (take := fun _ => takeZoneStatus) hfull ht)

end

/-- Settles O42: the live set is read zone by zone (`State.getLsbD_liveZones`), and a set of overrides position by
position (`setOverrides_getElem?`). -/
theorem zoneCommands : Obligations.ZoneCommands := by
  refine ⟨fun tag zones s t hfull ht => ?_, fun tag value zones s hfull => ⟨fun hvalue => ?_, fun v hv => ?_⟩,
    fun tag s hfull => exec_zoneStatus hfull (takeZoneStatus_eq s), fun s z hz => ?_⟩
  · subst ht
    exact congrArg Host.Outcome.next (State.startTraffic_now (take := fun _ => takeSetZones zones) hfull rfl)
  · exact exec_setOverride hfull (by rw [takeSetOverride, overrideOf_eq_none hvalue])
  · have hcode : overrideOf value = some v := by
      rcases hv with ⟨rfl, rfl⟩ | ⟨rfl, rfl⟩ | ⟨rfl, rfl⟩ <;> rfl
    exact ⟨_, exec_setOverride hfull (takeSetOverride_eq hcode rfl), rfl, setOverrides_length .., fun z hz =>
      setOverrides_getElem? _ _ _ hz⟩
  · rw [s.getLsbD_liveZones hz, s.zoneLive_eq]

end Sys2Proof.Machine
end


section
namespace Sys2Proof.Machine
open Sys2Proof

/-! ## ARBITER_TAKE and MOVE_TO_SENDING -/

/-! ### When a take, a move and the outage mark are allowed -/

theorem Queues.total_pos_iff (q : Queues) : 0 < q.total ↔ q ≠ ⟨[], [], [], []⟩ := by
  rw [Ne, Queues.mk.injEq, Queues.total, ← List.length_eq_zero_iff, ← List.length_eq_zero_iff,
    ← List.length_eq_zero_iff, ← List.length_eq_zero_iff]
  omega

section
variable {s : State}

theorem State.arbiterWaits_iff : s.arbiterWaits = true ↔ Waiter.arbiter ∈ s.pdu.waiters := by
  simp [State.arbiterWaits]

theorem State.completionWaits_iff : s.completionWaits = true ↔ Waiter.completion ∈ s.pdu.waiters := by
  simp [State.completionWaits]

theorem State.resetting_iff : s.resetting = false ↔ s.msu.flush = none := by simp [State.resetting]

/-- The conditions of R108 and R125 as the statements write them. -/
theorem State.takeAllowed_iff_conditions : s.takeAllowed = true ↔ s.dsu.staging = none ∧
    s.dsu.queues ≠ ⟨[], [], [], []⟩ ∧ s.liveZones ≠ 0 ∧ s.msu.flush = none ∧ Waiter.arbiter ∉ s.pdu.waiters ∧
      Waiter.completion ∉ s.pdu.waiters := by
  rw [State.takeAllowed_iff, Queues.total_pos_iff, State.resetting_iff, ← Bool.not_eq_true, State.arbiterWaits_iff,
    ← Bool.not_eq_true, State.completionWaits_iff]

theorem State.moveAllowed_iff_conditions : s.moveAllowed = true ↔ s.dsu.staging.isSome = true ∧ s.dsu.sending = none ∧
    s.pins.ready = true ∧ s.pins.ehold = false ∧ s.dsu.hold = false ∧ s.msu.flush = none := by
  simp [State.moveAllowed, State.held, State.resetting, and_assoc]

theorem State.outageDue_iff_conditions : s.outageDue = true ↔ s.dsu.outage = false ∧ s.liveZones = 0 ∧
    s.dsu.staging = none ∧ s.dsu.queues ≠ ⟨[], [], [], []⟩ ∧ s.msu.flush = none := by
  simp [State.outageDue, State.resetting, and_assoc, Queues.total_pos_iff]

end

/-! ### The rows -/

theorem Queues.ne_empty_of_get {q : Queues} {k : QueueName} {n : Nat} {rest : List Nat} (h : q.get k = n :: rest) :
    q ≠ ⟨[], [], [], []⟩ := by
  rintro rfl
  cases k <;> cases h

section
variable {s s₁ u : State} {q : QueueName} {n oldest : Nat} {rest tail : List Nat} {m mo : Message} {r r₁ : Record}

theorem exec_arbiterTake_idle (h : ¬ s.takeAllowed = true) : exec .arbiterTake s = .next s :=
  congrArg Host.Outcome.next (if_neg h)

theorem exec_arbiterTake_takes (h : s.takeAllowed = true) (hu : s.take false = u) :
    exec .arbiterTake s = .next u.afterTraffic := by
  subst hu
  exact congrArg Host.Outcome.next (if_pos h)

theorem exec_moveToSending_idle (h : ¬ s.moveAllowed = true) : exec .moveToSending s = .next s :=
  congrArg Host.Outcome.next (if_neg h)

theorem exec_moveToSending_moves (h : s.moveAllowed = true) : exec .moveToSending s = .next s.move.afterTraffic :=
  congrArg Host.Outcome.next (if_pos h)

/-! ### What a take does with the head of the queue served -/

theorem Record.away_iff : r.away = true ↔ r.kind = .twoWay ∧ r.presence = .away := by
  simp [Record.away]

section
variable (hserve : s.dsu.serve = some q) (hget : s.dsu.queues.get q = n :: rest) (hm : s.message? n = some m)
  (hr : s.record? m.owner = some r)
include hserve hget hm hr

theorem State.take_stages (h : r.kind = .oneWay ∨ r.presence ≠ .away) :
    s.take false = (s.popQueue q n rest).stage n m r := by
  have haway : r.away = false := by
    rw [← Bool.not_eq_true, Record.away_iff]
    rintro ⟨hkind, hpresence⟩
    exact h.elim (by rw [hkind]; simp) (absurd hpresence)
  simp [State.take, hserve, hget, hm, hr, haway]

variable (hkind : r.kind = .twoWay) (hpresence : r.presence = .away)
include hkind hpresence

/-- A parking that settles no slot needs no room in the extract FIFO (R111, R146). -/
theorem State.take_parks (h : r.parkSettles m = false) : s.take false = (s.popQueue q n rest).park n := by
  simp [State.take, hserve, hget, hm, hr, Record.away_iff.mpr ⟨hkind, hpresence⟩, h]

theorem State.take_waits (h : r.parkSettles m = true) (ht : s.touch false m.owner = none) :
    s.take false = s.wait false .arbiter := by
  simp [State.take, hserve, hget, hm, hr, Record.away_iff.mpr ⟨hkind, hpresence⟩, h, ht]

theorem State.take_parks_settling (h : r.parkSettles m = true) (ht : s.touch false m.owner = some s₁) :
    s.take false = (((s₁.popQueue q n rest).park n).freeOwner false m.owner (.alone false)).1 := by
  simp [State.take, hserve, hget, hm, hr, Record.away_iff.mpr ⟨hkind, hpresence⟩, h, ht]

end

/-! ### The slot taken from its queue -/

theorem State.message?_popQueue (hm : s.message? n = some m) :
    (s.popQueue q n rest).message? n = some { m with origin := q } := by
  rw [State.message?_popQueue_same, hm]; rfl

/-- The live set reads the input pins and the settings of the Dispatch Unit (R113). -/
theorem State.liveZones_congr (hpins : u.pins = s.pins) (hservice : u.dsu.service = s.dsu.service)
    (hoverrides : u.dsu.overrides = s.dsu.overrides) : u.liveZones = s.liveZones :=
  congrArg zonesWhere (funext fun z => by simp only [State.zoneLive, hpins, hservice, hoverrides])

/-- A change of a message that keeps the deadline keeps every deadline. -/
theorem State.deadlineOf_updateMessage {f : Message → Message}
    (hf : ∀ m, s.message? n = some m → (f m).deadline = m.deadline) :
    (s.updateMessage n f).deadlineOf = s.deadlineOf := by
  funext k
  by_cases hk : k = n
  · subst hk
    simp only [State.deadlineOf, State.message?_updateMessage_same]
    cases hm : s.message? k with
    | none => rfl
    | some m => simp [hf m hm]
  · exact State.deadlineOf_congr (State.message?_updateMessage_other _ _ hk)

theorem State.deadlineOf_popQueue : (s.popQueue q n rest).deadlineOf = s.deadlineOf :=
  State.deadlineOf_updateMessage (f := fun m => { m with origin := q }) fun _ _ => rfl

theorem State.popQueue_free (s : State) : (s.popQueue q n rest).msu.free = s.msu.free ∧
    (s.popQueue q n rest).msu.freeCount = s.msu.freeCount := by
  simp [State.popQueue]

@[simp] theorem State.takeOut_hold (s : State) (n : Nat) (p : Place) : (s.takeOut n p).aru.hold = s.aru.hold := by
  cases p <;> rfl

/-- Staging leaves every other slot, and fixes the frame on the live set as it stands (R111). -/
theorem State.stage_popQueue (hm : s.message? n = some m) :
    ((s.popQueue q n rest).stage n m r).message? n = some { m with origin := q, place := .staged } ∧
      (∀ k, k ≠ n → ((s.popQueue q n rest).stage n m r).message? k = s.message? k) ∧
      ((s.popQueue q n rest).stage n m r).dsu = { s.dsu with
        queues := s.dsu.queues.set q rest
        rotation := s.dsu.rotate q
        staging := some ⟨n,
          { zones := fixedZones m.kind (m.attempts + 1) r.presence r.zones s.dsu.service s.liveZones,
            address := r.address, tag := m.tag, cls := m.cls, ack := m.kind == .twoWay, attempt := m.attempts + 1,
            body := m.body }⟩ } := by
  have hslots : ∀ k, ((s.popQueue q n rest).stage n m r).message? k =
      ((s.popQueue q n rest).updateMessage n fun m => { m with place := .staged }).message? k := fun _ => rfl
  have hlive : (s.popQueue q n rest).liveZones = s.liveZones := State.liveZones_congr (by simp) (by simp) (by simp)
  refine ⟨?_, fun k hk => ?_, ?_⟩
  · rw [hslots, State.message?_updateMessage_same, State.message?_popQueue hm]; rfl
  · rw [hslots, State.message?_updateMessage_other _ _ hk, State.message?_popQueue_other _ _ _ hk]
  · simp only [State.stage, State.updateMessage_dsu, State.popQueue_dsu, hlive]

/-- A parking with room, of a slot that a take has taken from its queue (R111, R146). -/
theorem State.park_popQueue (hm : s.message? n = some m) (hr : s.record? m.owner = some r) (hrel : m.released = false)
    (hp : m.place = .queued) (hlen : r.held.length < 4) (hu : (s.popQueue q n rest).park n = u) :
    u.message? n = some { m with origin := q, place := .held (s.deadlineIn (s.aru.hold * 600)) } ∧
      u.record? m.owner = some { r with held := r.held ++ [n] } ∧ (∀ j, j ≠ m.owner → u.record? j = s.record? j) ∧
      ((∀ p, n ∉ (s.dsu.queues.set q rest).get p) → u.dsu = { s.dsu with
        queues := s.dsu.queues.set q rest
        rotation := s.dsu.rotate q }) ∧
      joinsInOrder s.deadlineOf n (s.deadlineIn (s.aru.hold * 600)) s.aru.timed u.aru.timed ∧
      u.pdu = s.pdu ∧ u.clu = s.clu := by
  obtain ⟨x, hx⟩ : ∃ x, (s.popQueue q n rest).takeOut n .queued = x := ⟨_, rfl⟩
  have hmessage : x.message? n = some { m with origin := q } := by
    rw [← hx, State.message?_takeOut, State.message?_popQueue hm]
  have hrecord : ∀ j, x.record? j = s.record? j := fun j => by
    rw [← hx, State.record?_takeOut, State.record?_popQueue]
  have haru : x.aru = s.aru := by rw [← hx, State.takeOut, State.popQueue_aru]
  have hpdu : x.pdu = s.pdu := by rw [← hx, State.takeOut_pdu, State.popQueue_pdu]
  have hclu : x.clu = s.clu := by rw [← hx, State.takeOut_clu, State.popQueue_clu]
  have hdeadline : x.deadlineIn (x.aru.hold * 600) = s.deadlineIn (s.aru.hold * 600) := by
    rw [State.deadlineIn, hpdu, haru]; rfl
  have hdeadlines : x.deadlineOf = s.deadlineOf := by
    rw [← State.deadlineOf_popQueue (s := s) (q := q) (n := n) (rest := rest), ← hx]
    exact funext fun k => State.deadlineOf_congr (State.message?_takeOut ..)
  have hpark := State.park_room (State.message?_popQueue (q := q) (rest := rest) hm)
    ((State.record?_popQueue ..).trans hr) hrel hlen
  dsimp only at hpark
  rw [hp, hx, hu] at hpark
  subst hpark
  refine ⟨?_, ?_, fun j hj => (State.record?_hold_other _ _ hj).trans (hrecord j), fun hgone => ?_, ?_,
    (State.hold_pdu ..).trans hpdu, (State.hold_clu ..).trans hclu⟩
  · rw [State.message?_hold_same, hmessage, ← hdeadline]; rfl
  · rw [State.record?_hold_owner, hrecord, hr]; rfl
  · rw [State.hold_dsu, ← hx, State.takeOut, State.popQueue_dsu]
    simp only [Queues.erase_not_mem hgone]
  · rw [State.hold_aru, hdeadline, haru, hdeadlines]
    exact insertByDeadline_joins fun _ _ => rfl

/-! ### Parking with an eviction -/

/-- A parking that evicts, after the slot has left its queue and whatever its place, and the freeing of the owner that
the eviction may begin (R24, R111, R146). -/
theorem State.park_evicting_anywhere (holder : Holder) (hm : s.message? n = some m) (hrel : m.released = false)
    (hr : s.record? m.owner = some r) (hheld : r.held = oldest :: tail) (hlen : 3 ≤ tail.length) (hne : oldest ≠ n)
    (hmo : s.message? oldest = some mo) (hown : mo.owner = m.owner)
    (hu : ((s.park n).freeOwner false m.owner holder).1 = u) :
    u.message? oldest = none ∧ u.message? n = some { m with place := .held (s.deadlineIn (s.aru.hold * 600)) } ∧
      (∀ k, k ≠ n → k ≠ oldest → u.message? k = s.message? k) ∧ (∀ j, j ≠ m.owner → u.record? j = s.record? j) ∧
      u.msu.free.toList = oldest :: s.msu.free.toList ∧ u.msu.freeCount = s.msu.freeCount + 1 ∧
      (r.state ≠ .retiring ∨ r.live.erase oldest ≠ [] → u.pdu = s.pdu ∧ u.record? m.owner =
        some { r.settled .abandoned oldest mo s.pdu.period with held := tail ++ [n] }) := by
  obtain ⟨x, hx⟩ : ∃ x, s.takeOut n m.place = x := ⟨_, rfl⟩
  have hmessage : ∀ k, x.message? k = s.message? k := fun k => by rw [← hx, State.message?_takeOut]
  have hrecord : ∀ j, x.record? j = s.record? j := fun j => by rw [← hx, State.record?_takeOut]
  have hmsu : x.msu = s.msu := by rw [← hx, State.takeOut_msu]
  have hpdu : x.pdu = s.pdu := by rw [← hx, State.takeOut_pdu]
  have hdeadline : x.deadlineIn (x.aru.hold * 600) = s.deadlineIn (s.aru.hold * 600) := by
    rw [State.deadlineIn, hpdu, ← hx, State.takeOut_hold]; rfl
  obtain ⟨hevicted, howner⟩ := State.hold_evicting (s := x) (rest := x.aru.timed) (x := x)
    ⟨rfl, rfl, rfl, rfl, rfl, rfl, rfl, rfl, rfl, rfl, rfl⟩ ((hmessage n).trans hm) ((hrecord _).trans hr) hheld hne
    ((hmessage oldest).trans hmo) hown
  rw [State.park_full hm hr hrel hheld hlen, hx] at hu
  subst hu
  have hfreed := hevicted.freeOwner false holder
  refine ⟨hfreed.gone, hdeadline ▸ hfreed.parked, fun k hk ho => (hfreed.others k hk ho).trans (hmessage k),
    fun j hj => (hfreed.records j hj).trans (hrecord j), hmsu ▸ hfreed.free, hmsu ▸ hfreed.freeCount, fun hstays => ?_⟩
  rw [State.freeOwner_notDue false holder howner (by simpa [Record.settled] using hstays)]
  exact ⟨by simp [hpdu], hpdu ▸ howner⟩

/-! ### What becomes of the owner of a settled slot -/

/-- The freeing that a settlement may begin: the owner stays and nothing is done, or it is freed, or its closing entry
waits (R24, R41). -/
theorem State.freeOwner_settled {w : State} {i : Nat} {e : Ending} (holder : Holder)
    (hr : w.record? i = some (r.settled e n m w.pdu.period))
    (hneeds : w.needsTouch (r.settled e n m w.pdu.period) = false) (hu : (w.freeOwner false i holder).1 = u) :
    (r.state ≠ .retiring ∨ r.live.erase n ≠ [] → u = w) ∧
      (r.state = .retiring → r.live.erase n = [] →
        (w.pdu.waiters = [] → w.pdu.extract.length < 64 → u.record? i = none ∧ u.msu = (w.countFreed holder).msu) ∧
        (w.pdu.waiters ≠ [] ∨ 64 ≤ w.pdu.extract.length →
          u = (w.putRecord i { r.settle e m w.pdu.period with
            live := [], held := r.held.erase n, closing := true }).wait false (.closing i holder))) := by
  subst hu
  refine ⟨fun hstays => ?_, fun hstate hlive => ⟨fun hwaiters hextract => ?_, fun hroom => ?_⟩⟩
  · rw [State.freeOwner_settled_stays _ hr hstays]
  · obtain ⟨t, hfree, hF⟩ := State.freeOwner_settled_freed holder hr hneeds hstate hlive hwaiters hextract
    rw [hfree]
    refine ⟨by rw [State.record?_countFreed, hF.record, Function.update_self], ?_⟩
    simp only [State.countFreed]
    split <;> simp [hF.msu]
  · rw [State.freeOwner_settled_waits _ hr hneeds hstate hlive hroom]

/-- The settlement of a slot in any place, `flush` the counts of a TRAFFIC RESET as then written, and what becomes of
its owner (R24, R41, R51). -/
theorem State.settle_freeOwner {v w : State} {flush : Option TrafficReset} (e : Ending) (holder : Holder)
    (hm : v.message? n = some m) (hr : v.record? m.owner = some r) (hneeds : v.needsTouch r = false)
    (hw : { v.settle e n with msu := { (v.settle e n).msu with flush } } = w)
    (hu : (w.freeOwner false m.owner holder).1 = u) :
    u.message? n = none ∧ (∀ k, k ≠ n → u.message? k = v.message? k) ∧ u.dsu = (v.takeOut n m.place).dsu ∧
      (∀ j, j ≠ m.owner → u.record? j = v.record? j) ∧
      (r.state ≠ .retiring ∨ r.live.erase n ≠ [] → u.pdu = v.pdu ∧
        u.record? m.owner = some { r.settle e m v.pdu.period with live := r.live.erase n, held := r.held.erase n } ∧
        u.msu.flush = flush) ∧
      (r.state = .retiring → r.live.erase n = [] →
        (v.pdu.waiters = [] → v.pdu.extract.length < 64 → u.record? m.owner = none ∧
          u.msu.flush = (w.countFreed holder).msu.flush) ∧
        (v.pdu.waiters ≠ [] ∨ 64 ≤ v.pdu.extract.length →
          u.record? m.owner = some { r.settle e m v.pdu.period with
            live := [], held := r.held.erase n, closing := true } ∧ u.msu.flush = flush ∧
          u.pdu = { v.pdu with waiters := v.pdu.waiters ++ [.closing m.owner holder] })) := by
  have hmessage : ∀ k, w.message? k = (v.settle e n).message? k := fun k => by rw [← hw]; rfl
  have hrecord : ∀ j, w.record? j = (v.settle e n).record? j := fun j => by rw [← hw]; rfl
  have hpdu : w.pdu = v.pdu := by rw [← hw]; exact State.settle_pdu ..
  have hdsu : w.dsu = (v.takeOut n m.place).dsu := by rw [← hw]; exact (State.settle_places hm).1
  have hflush : w.msu.flush = flush := by rw [← hw]
  obtain ⟨howner, hneeds'⟩ := State.settle_owner e hm hr hneeds
  rw [State.settle_pdu, ← hpdu, ← hrecord] at howner
  rw [State.settle_pdu, ← hpdu, State.needsTouch_congr (t := v.settle e n) (s := w) (r := r.settled e n m w.pdu.period)
    ((State.settle_pdu ..).trans hpdu.symm) rfl] at hneeds'
  obtain ⟨hslots, -, -, -, -, -, udsu, -, -, -, -, -, hothers⟩ := w.freeOwner_frame false m.owner holder
  obtain ⟨hstays, hleaves⟩ := State.freeOwner_settled holder howner hneeds' hu
  rw [hu] at hslots udsu hothers
  have umessage : ∀ k, u.message? k = (v.settle e n).message? k := fun k =>
    (State.message?_congr hslots k).trans (hmessage k)
  refine ⟨(umessage n).trans (State.message?_settle_same ..),
    fun k hk => (umessage k).trans (State.message?_settle_other _ _ hk), udsu.trans hdsu,
    fun j hj => ((hothers j hj).trans (hrecord j)).trans (State.record?_settle_other hm hj), fun h => ?_,
    fun hstate hlive => ?_⟩
  · rw [hstays h]
    exact ⟨hpdu, hpdu ▸ howner, hflush⟩
  · obtain ⟨hfreed, hwaits⟩ := hleaves hstate hlive
    rw [hpdu] at hfreed hwaits
    refine ⟨fun hwaiters hextract => ?_, fun hroom => ?_⟩
    · obtain ⟨hnone, hmsu⟩ := hfreed hwaiters hextract
      exact ⟨hnone, by rw [hmsu]⟩
    · rw [hwaits hroom]
      exact ⟨State.record?_putRecord_same .., hflush, by rw [← hpdu]; rfl⟩

/-! ### A take that settles a slot -/

section
variable (hm : s.message? n = some m) (ht : s.touch false m.owner = some s₁) (hr₁ : s₁.record? m.owner = some r₁)
include hm ht hr₁

/-- A take whose parking evicts the owner's oldest held slot, after the touch-sweep of the owner (R111, R146). -/
theorem State.park_popQueue_evicting (hrel : m.released = false) (hheld : r₁.held = oldest :: tail)
    (hlen : 3 ≤ tail.length) (hne : oldest ≠ n) (hmo : s.message? oldest = some mo) (hown : mo.owner = m.owner)
    (hu : (((s₁.popQueue q n rest).park n).freeOwner false m.owner (.alone false)).1 = u) :
    u.message? oldest = none ∧
      u.message? n = some { m with origin := q, place := .held (s.deadlineIn (s.aru.hold * 600)) } ∧
      (∀ k, k ≠ n → k ≠ oldest → u.message? k = s.message? k) ∧ (∀ j, j ≠ m.owner → u.record? j = s₁.record? j) ∧
      u.msu.free.toList = oldest :: s.msu.free.toList ∧ u.msu.freeCount = s.msu.freeCount + 1 ∧
      (r₁.state ≠ .retiring ∨ r₁.live.erase oldest ≠ [] → u.pdu = s₁.pdu ∧ u.record? m.owner = some { r₁ with
        pending := r₁.pending - mo.charge
        used := if mo.allowanceUsed = some s.pdu.period then r₁.used - 1 else r₁.used
        live := r₁.live.erase oldest
        held := tail ++ [n] }) := by
  have htable := State.touch_tableOnly ht
  obtain ⟨hfree, hcount⟩ := s₁.popQueue_free (q := q) (n := n) (rest := rest)
  have hdeadline : (s₁.popQueue q n rest).deadlineIn ((s₁.popQueue q n rest).aru.hold * 600) =
      s.deadlineIn (s.aru.hold * 600) := by
    rw [State.deadlineIn, State.popQueue_pdu, State.popQueue_aru, htable.tick, htable.aru]; rfl
  obtain ⟨hgone, hparked, hothers, hrecords, ufree, ucount, hstays⟩ := State.park_evicting_anywhere (.alone false)
    (State.message?_popQueue (q := q) (rest := rest) ((htable.message? n).trans hm)) hrel
    ((State.record?_popQueue ..).trans hr₁) hheld hlen hne
    ((State.message?_popQueue_other _ _ _ hne).trans ((htable.message? _).trans hmo)) hown hu
  refine ⟨hgone, hdeadline ▸ hparked, fun k hk ho => ?_, fun j hj => ?_, ?_, ?_, fun h => ?_⟩
  · rw [hothers k hk ho, State.message?_popQueue_other _ _ _ hk, htable.message?]
  · rw [hrecords j hj, State.record?_popQueue]
  · rw [ufree, hfree, htable.msu]
  · rw [ucount, hcount, htable.msu]
  · simpa only [Record.settled, Record.settle_abandoned, State.popQueue_pdu, htable.period] using hstays h

/-- A take of a released slot, which its parking settles, after the touch-sweep of the owner (R111, R146). -/
theorem State.park_popQueue_released (hrel : m.released = true)
    (hu : (((s₁.popQueue q n rest).park n).freeOwner false m.owner (.alone false)).1 = u) :
    u.message? n = none ∧ (∀ k, k ≠ n → u.message? k = s.message? k) ∧
      (∀ j, j ≠ m.owner → u.record? j = s₁.record? j) ∧
      (r₁.state ≠ .retiring ∨ r₁.live.erase n ≠ [] → u.pdu = s₁.pdu ∧
        u.record? m.owner = some { r₁.settle .abandoned m s.pdu.period with
          live := r₁.live.erase n, held := r₁.held.erase n }) ∧
      (r₁.state = .retiring → r₁.live.erase n = [] →
        (s₁.pdu.waiters = [] → s₁.pdu.extract.length < 64 → u.record? m.owner = none) ∧
        ((s₁.pdu.waiters ≠ [] ∨ 64 ≤ s₁.pdu.extract.length) →
          u.record? m.owner = some { r₁.settle .abandoned m s.pdu.period with
            live := [], held := r₁.held.erase n, closing := true } ∧
          u.pdu = { s₁.pdu with waiters := s₁.pdu.waiters ++ [.closing m.owner (.alone false)] })) := by
  have htable := State.touch_tableOnly ht
  have hpopped := State.message?_popQueue (q := q) (rest := rest) ((htable.message? n).trans hm)
  have hneeds : (s₁.popQueue q n rest).needsTouch r₁ = false :=
    (State.needsTouch_congr (State.popQueue_pdu ..) rfl).trans (State.touch_needs ht hr₁)
  rcases State.park_cases hpopped with ⟨-, hpark⟩ | ⟨hno, -⟩
  case inr => rw [hrel] at hno; cases hno
  rw [hpark] at hu
  obtain ⟨hgone, hothers, -, hrecords, hstays, hleaves⟩ := State.settle_freeOwner (flush := _) .abandoned (.alone false)
    hpopped ((State.record?_popQueue ..).trans hr₁) hneeds rfl hu
  have hperiod : (s₁.popQueue q n rest).pdu.period = s.pdu.period := by rw [State.popQueue_pdu, htable.period]
  rw [hperiod, State.popQueue_pdu] at hstays hleaves
  refine ⟨hgone, fun k hk => ?_, fun j hj => (hrecords j hj).trans (State.record?_popQueue ..), fun h => ?_,
    fun hstate hlive => ?_⟩
  · rw [hothers k hk, State.message?_popQueue_other _ _ _ hk, htable.message?]
  · obtain ⟨hpdu, hrecord, -⟩ := hstays h
    exact ⟨hpdu, hrecord⟩
  · obtain ⟨hfreed, hwaits⟩ := hleaves hstate hlive
    refine ⟨fun hwaiters hextract => (hfreed hwaiters hextract).1, fun hroom => ?_⟩
    obtain ⟨hrecord, -, hpdu⟩ := hwaits hroom
    exact ⟨hrecord, hpdu⟩

end

end

/-- Settles O46: the head of the queue served is staged, by `State.take_stages`; parked with room in the held list, by
`State.park_popQueue`; parked with an eviction, by `State.park_popQueue_evicting`; or settled, being released, by
`State.park_popQueue_released`. -/
theorem arbiterTakeAndMove : Obligations.ArbiterTakeAndMove := by
  refine ⟨fun s h => exec_arbiterTake_idle ?_, ?_, fun s h => exec_moveToSending_idle ?_, ?_⟩
  · rw [State.takeAllowed_iff_conditions]
    rintro ⟨hstaging, hqueues, hlive, hflush, harbiter, hcompletion⟩
    simp [hstaging, hqueues, hflush, harbiter, hcompletion] at h
    exact hlive h
  · intro s q n rest m r hstaging hlive hflush harbiter hcompletion hserve hget hm hr
    have hexec : ∀ {u}, s.take false = u → exec .arbiterTake s = .next u.afterTraffic := exec_arbiterTake_takes
      (State.takeAllowed_iff_conditions.mpr
        ⟨hstaging, Queues.ne_empty_of_get hget, hlive, hflush, harbiter, hcompletion⟩)
    refine ⟨fun h => ?_, fun hkind hpresence h ht => ?_, fun hkind hpresence hrel hp hlen => ?_,
      fun s₁ r₁ oldest tail mo hkind hpresence hrel ht hr₁ hheld hlen hne hmo hown => ?_,
      fun s₁ r₁ hkind hpresence hrel ht hr₁ => ?_⟩
    · obtain ⟨hmessage, hothers, hdsu⟩ := State.stage_popQueue (q := q) (rest := rest) (r := r) hm
      exact ⟨_, hexec (State.take_stages hserve hget hm hr h), hmessage, hothers, hdsu, by simp, by simp, by simp,
        by simp, by simp, by simp⟩
    · exact hexec (State.take_waits hserve hget hm hr hkind hpresence (Record.parkSettles_iff.mpr h) ht)
    · have hkeeps : r.parkSettles m = false := by
        rw [Bool.eq_false_iff, Ne, Record.parkSettles_iff, hrel]; simpa using hlen
      exact ⟨_, hexec (State.take_parks hserve hget hm hr hkind hpresence hkeeps),
        State.park_popQueue hm hr hrel hp hlen rfl⟩
    · have hsettles : r.parkSettles m = true := by
        obtain ⟨-, -, -, -, -, -, -, -, -, -, -, hsame, -⟩ := State.touch_fields ht hr hr₁
        rw [Record.parkSettles_iff, ← hsame, hheld, List.length_cons]; omega
      exact ⟨_, hexec (State.take_parks_settling hserve hget hm hr hkind hpresence hsettles ht),
        State.park_popQueue_evicting hm ht hr₁ hrel hheld hlen hne hmo hown rfl⟩
    · have hsettles : r.parkSettles m = true := Record.parkSettles_iff.mpr (.inl hrel)
      exact ⟨_, hexec (State.take_parks_settling hserve hget hm hr hkind hpresence hsettles ht),
        State.park_popQueue_released hm ht hr₁ hrel rfl⟩
  · rw [State.moveAllowed_iff_conditions]
    rintro ⟨hstaging, hsending, hready, hehold, hhold, hflush⟩
    simp [hsending, hready, hehold, hhold, hflush] at h
    simp [h] at hstaging
  · intro s b hstaging hsending hready hehold hhold hflush
    have hmove : s.moveAllowed = true :=
      State.moveAllowed_iff_conditions.mpr ⟨by simp [hstaging], hsending, hready, hehold, hhold, hflush⟩
    rw [exec_moveToSending_moves hmove, State.move_eq hstaging]

end Sys2Proof.Machine
end


section
namespace Sys2Proof.Machine
open Sys2Proof

/-! ## FRAME_COMPLETION -/

section
variable {s s₁ u : State} {b : Sending} {m : Message} {r : Record} {e : Ending} {f : TrafficReset}

/-! ### The row -/

theorem exec_frameCompletion_idle (h : s.dsu.sending = none ∨ Waiter.completion ∈ s.pdu.waiters) :
    exec .frameCompletion s = .next s := by
  refine congrArg Host.Outcome.next (if_neg ?_)
  rcases h with h | h
  · simp [h]
  · simp [State.completionWaits_iff.mpr h]

theorem exec_frameCompletion_sent (hb : s.dsu.sending = some b) (hw : Waiter.completion ∉ s.pdu.waiters)
    (hu : s.completeFrame false = u) : exec .frameCompletion s = .next u.afterTraffic := by
  subst hu
  refine congrArg Host.Outcome.next (if_pos ?_)
  rw [← State.completionWaits_iff, Bool.not_eq_true] at hw
  simp [hb, hw]

/-! ### The slot's marks and kind -/

theorem Message.afterFrame_owner (m : Message) (refused : Bool) : (m.afterFrame refused).owner = m.owner := by
  cases refused <;> rfl

theorem Message.afterFrame_place (m : Message) (refused : Bool) : (m.afterFrame refused).place = m.place := by
  cases refused <;> rfl

/-- The settlements of R123 and R124: an acknowledgement comes before a cancel, and a frame that was sent to a ONE-WAY
owner is delivered. -/
theorem Message.completionEnding_of {refused : Bool} (h : (m.ackPending = true ∧ e = .delivered) ∨
    (m.ackPending = false ∧ m.cancelPending = true ∧ e = .cancelled) ∨
    (m.ackPending = false ∧ m.cancelPending = false ∧ refused = false ∧ m.kind = .oneWay ∧ e = .delivered)) :
    m.completionEnding refused = some e := by
  rcases h with ⟨hack, rfl⟩ | ⟨hack, hcancel, rfl⟩ | ⟨hack, hcancel, rfl, hkind, rfl⟩
  · simp [Message.completionEnding, hack]
  · simp [Message.completionEnding, hack, hcancel]
  · simp [Message.completionEnding, hack, hcancel, hkind]

section
variable (hack : m.ackPending = false) (hcancel : m.cancelPending = false)
include hack hcancel

theorem Message.completionEnding_refused : m.completionEnding true = none := by
  simp [Message.completionEnding, hack, hcancel]

theorem Message.completionEnding_twoWay (hkind : m.kind = .twoWay) : m.completionEnding false = none := by
  simp [Message.completionEnding, hack, hcancel, hkind]

end

/-! ### What a completion does -/

section
variable (hb : s.dsu.sending = some b) (hm : s.message? b.slot = some m)
include hb hm

theorem State.completeFrame_flushes (hf : s.msu.flush = some f) :
    s.completeFrame false = s.flushCompletion false b.slot m := by
  simp [State.completeFrame, hb, hm, State.resetting, hf]

theorem State.completeFrame_settles (hf : s.msu.flush = none) (he : m.completionEnding s.dsu.refusal = some e) :
    s.completeFrame false = s.settleCompletion false b.slot (m.afterFrame s.dsu.refusal) e := by
  simp [State.completeFrame, hb, hm, State.resetting, hf, he]

/-- A refused frame's slot goes back to the head of its origin queue (R123). -/
theorem State.completeFrame_requeues (hf : s.msu.flush = none) (hack : m.ackPending = false)
    (hcancel : m.cancelPending = false) (hrefused : s.dsu.refusal = true) (hu : s.completeFrame false = u) :
    u.message? b.slot = some { m with place := .queued } ∧ (∀ k, k ≠ b.slot → u.message? k = s.message? k) ∧
      u.dsu = { s.dsu with
        sending := none, queues := s.dsu.queues.set m.origin (b.slot :: s.dsu.queues.get m.origin) } ∧
      u.stu = s.stu ∧ u.pdu = s.pdu ∧ u.clu = s.clu ∧ u.aru = s.aru := by
  obtain ⟨x, hx⟩ : ∃ x : State, { s with dsu := { s.dsu with sending := none } } = x := ⟨_, rfl⟩
  have hmessage : ∀ k, x.message? k = s.message? k := fun k => by rw [← hx]; rfl
  have hrequeue : s.completeFrame false =
      (x.updateMessage b.slot fun _ => { m with place := .queued }).requeue m.origin b.slot := by
    rw [← hx]
    simp [State.completeFrame, hb, hm, State.resetting, hf, hrefused, Message.completionEnding_refused hack hcancel,
      Message.afterFrame]
  rw [← hu, hrequeue]
  refine ⟨?_, fun k hk => ?_, ?_, ?_⟩
  · rw [State.message?_requeue, State.message?_updateMessage_same, hmessage, hm]; rfl
  · rw [State.message?_requeue, State.message?_updateMessage_other _ _ hk, hmessage]
  · simp [State.requeue, ← hx]
  · simp [← hx]

/-- The slot of a frame sent to a TWO-WAY owner awaits its acknowledgement (R124, R144). -/
theorem State.completeFrame_awaits (hf : s.msu.flush = none) (hack : m.ackPending = false)
    (hcancel : m.cancelPending = false) (hrefused : s.dsu.refusal = false) (hkind : m.kind = .twoWay)
    (hu : s.completeFrame false = u) :
    u.message? b.slot = some { m with
        attempts := m.attempts + 1, aired := true
        place := .awaiting (s.deadlineIn (min (s.aru.w0 * 2 ^ m.attempts) 600)) } ∧
      (∀ k, k ≠ b.slot → u.message? k = s.message? k) ∧
      joinsInOrder s.deadlineOf b.slot (s.deadlineIn (min (s.aru.w0 * 2 ^ m.attempts) 600)) s.aru.timed u.aru.timed ∧
      u.dsu = { s.dsu with sending := none } ∧ u.stu = s.stu ∧ u.pdu = s.pdu ∧ u.clu = s.clu := by
  obtain ⟨x, hx⟩ : ∃ x : State, { s with dsu := { s.dsu with sending := none } } = x := ⟨_, rfl⟩
  obtain ⟨y, hy⟩ : ∃ y : State, (x.updateMessage b.slot fun _ =>
    { m with attempts := m.attempts + 1, aired := true }) = y := ⟨_, rfl⟩
  obtain ⟨d, hd⟩ : ∃ d, s.deadlineIn (min (s.aru.w0 * 2 ^ m.attempts) 600) = d := ⟨_, rfl⟩
  have hmessage : ∀ k, x.message? k = s.message? k := fun k => by rw [← hx]; rfl
  have hdeadlines : y.deadlineOf = s.deadlineOf := by
    rw [← hy, State.deadlineOf_updateMessage fun m' hm' => ?_]
    · exact funext fun k => State.deadlineOf_congr (hmessage k)
    · rw [hmessage, hm] at hm'
      cases hm'; rfl
  have hawait : s.completeFrame false = y.placeTimed b.slot (.awaiting d) d := by
    rw [← hy, ← hx, ← hd]
    simp [State.completeFrame, hb, hm, State.resetting, hf, hrefused,
      Message.completionEnding_twoWay hack hcancel hkind, Message.afterFrame, State.deadlineIn, Aru.ackWait,
      Config.waitMax]
  rw [← hu, hawait, hd]
  refine ⟨?_, fun k hk => ?_, ?_, ?_⟩
  · rw [State.message?_placeTimed_same, ← hy, State.message?_updateMessage_same, hmessage, hm]; rfl
  · rw [State.message?_placeTimed_other _ _ _ hk, ← hy, State.message?_updateMessage_other _ _ hk, hmessage]
  · have htimed : y.aru.timed = s.aru.timed := by rw [← hy, ← hx, State.updateMessage_aru]
    rw [State.placeTimed, htimed, hdeadlines]
    exact insertByDeadline_joins fun _ _ => rfl
  · simp [← hy, ← hx]

end

/-! ### A completion that settles -/

theorem State.settleCompletion_waits {n : Nat} (ht : s.touch false m.owner = none) :
    s.settleCompletion false n m e = s.wait false .completion := by
  simp [State.settleCompletion, ht]

theorem State.flushCompletion_waits {n : Nat} (ht : s.touch false m.owner = none) :
    s.flushCompletion false n m = s.wait false .completion := by
  simp [State.flushCompletion, ht]

section
variable {n : Nat} (hm : s.message? n = some m) (hp : m.place = .sending) (ht : s.touch false m.owner = some s₁)
  (hr : s₁.record? m.owner = some r)
include hm hp ht hr

/-- A completion outside a TRAFFIC RESET that settles its slot, after the touch-sweep of the owner (R123 to R125). -/
theorem State.settleCompletion_outcome (refused : Bool) {m' : Message} (hm' : m' = m.afterFrame refused)
    (hu : s.settleCompletion false n m' e = u) :
    u.message? n = none ∧ (∀ k, k ≠ n → u.message? k = s.message? k) ∧ u.dsu = { s.dsu with sending := none } ∧
      (∀ j, j ≠ m.owner → u.record? j = s₁.record? j) ∧
      (r.state ≠ .retiring ∨ r.live.erase n ≠ [] → u.pdu = s₁.pdu ∧
        u.record? m.owner = some { r.settle e m' s.pdu.period with
          live := r.live.erase n, held := r.held.erase n }) ∧
      (r.state = .retiring → r.live.erase n = [] →
        (s₁.pdu.waiters = [] → s₁.pdu.extract.length < 64 → u.record? m.owner = none) ∧
        ((s₁.pdu.waiters ≠ [] ∨ 64 ≤ s₁.pdu.extract.length) →
          u.record? m.owner = some { r.settle e m' s.pdu.period with
            live := [], held := r.held.erase n, closing := true } ∧
          u.pdu = { s₁.pdu with waiters := s₁.pdu.waiters ++ [.closing m.owner (.alone false)] })) := by
  have htable := State.touch_tableOnly ht
  have howner : m'.owner = m.owner := by rw [hm', Message.afterFrame_owner]
  obtain ⟨v, hv⟩ : ∃ v, s₁.updateMessage n (fun _ => m') = v := ⟨_, rfl⟩
  have hvm : v.message? n = some m' := by rw [← hv, State.message?_updateMessage_same, htable.message?, hm]; rfl
  have hpdu : v.pdu = s₁.pdu := by rw [← hv, State.updateMessage_pdu]
  have hrecord : ∀ j, v.record? j = s₁.record? j := fun j => by rw [← hv, State.record?_updateMessage]
  rw [State.settleCompletion, howner, ht] at hu
  dsimp only at hu
  rw [hv, ← howner] at hu
  have hneeds : v.needsTouch r = false := (State.needsTouch_congr hpdu rfl).trans (State.touch_needs ht hr)
  obtain ⟨hgone, hothers, hdsu, hrecords, hstays, hleaves⟩ := State.settle_freeOwner (flush := _) e (.alone false) hvm
    (by rw [hrecord, howner, hr]) hneeds rfl hu
  rw [hpdu, htable.period, howner] at hstays hleaves
  rw [howner] at hrecords
  refine ⟨hgone, fun k hk => ?_, ?_, fun j hj => (hrecords j hj).trans (hrecord j), fun h => ?_,
    fun hstate hlive => ?_⟩
  · rw [hothers k hk, ← hv, State.message?_updateMessage_other _ _ hk, htable.message?]
  · rw [hdsu, hm', Message.afterFrame_place, hp, ← hv, State.takeOut, State.updateMessage_dsu, htable.dsu]
  · obtain ⟨updu, urecord, -⟩ := hstays h
    exact ⟨updu, urecord⟩
  · obtain ⟨hfreed, hwaits⟩ := hleaves hstate hlive
    refine ⟨fun hwaiters hextract => (hfreed hwaiters hextract).1, fun hroom => ?_⟩
    obtain ⟨urecord, -, updu⟩ := hwaits hroom
    exact ⟨urecord, updu⟩

/-- A completion during a TRAFFIC RESET, after the touch-sweep of the owner, with what it adds to the counts of the
reset (R50, R51). -/
theorem State.flushCompletion_outcome (hf : s.msu.flush = some f) (hu : s.flushCompletion false n m = u) :
    u.message? n = none ∧ (∀ k, k ≠ n → u.message? k = s.message? k) ∧ u.dsu = { s.dsu with sending := none } ∧
      (∀ j, j ≠ m.owner → u.record? j = s₁.record? j) ∧
      (r.state ≠ .retiring ∨ r.live.erase n ≠ [] → u.pdu = s₁.pdu ∧
        u.record? m.owner = some { r.settle .flushed m s.pdu.period with
          live := r.live.erase n, held := r.held.erase n } ∧
        u.msu.flush = some { f with flushed := f.flushed + 1 }) ∧
      (r.state = .retiring → r.live.erase n = [] →
        (s₁.pdu.waiters = [] → s₁.pdu.extract.length < 64 → u.record? m.owner = none ∧
          u.msu.flush = some { f with flushed := f.flushed + 1, freed := f.freed + 1 }) ∧
        ((s₁.pdu.waiters ≠ [] ∨ 64 ≤ s₁.pdu.extract.length) →
          u.record? m.owner = some { r.settle .flushed m s.pdu.period with
            live := [], held := r.held.erase n, closing := true } ∧
          u.msu.flush = some { f with flushed := f.flushed + 1 } ∧
          u.pdu = { s₁.pdu with waiters := s₁.pdu.waiters ++ [.closing m.owner (.alone true)] })) := by
  have htable := State.touch_tableOnly ht
  have hm₁ := (htable.message? n).trans hm
  have hflush : (s₁.settle .flushed n).countFlushed.msu.flush = some { f with flushed := f.flushed + 1 } := by
    obtain ⟨-, -, hkept⟩ := State.settle_free_list (e := .flushed) hm₁
    simp only [State.countFlushed, hkept, htable.msu, hf, Option.map_some]
  rw [State.flushCompletion, ht] at hu
  obtain ⟨hgone, hothers, hdsu, hrecords, hstays, hleaves⟩ := State.settle_freeOwner .flushed (.alone true) hm₁ hr
    (State.touch_needs ht hr) rfl hu
  rw [htable.period] at hstays hleaves
  refine ⟨hgone, fun k hk => (hothers k hk).trans (htable.message? k), ?_, hrecords, fun h => ?_,
    fun hstate hlive => ?_⟩
  · rw [hdsu, hp, State.takeOut, htable.dsu]
  · obtain ⟨updu, urecord, uflush⟩ := hstays h
    exact ⟨updu, urecord, uflush.trans hflush⟩
  · obtain ⟨hfreed, hwaits⟩ := hleaves hstate hlive
    refine ⟨fun hwaiters hextract => ?_, fun hroom => ?_⟩
    · obtain ⟨hnone, uflush⟩ := hfreed hwaiters hextract
      refine ⟨hnone, uflush.trans ?_⟩
      exact congrArg (Option.map fun x : TrafficReset => { x with freed := x.freed + 1 }) hflush
    · obtain ⟨urecord, uflush, updu⟩ := hwaits hroom
      exact ⟨urecord, uflush.trans hflush, updu⟩

end

end

/-- Settles O47: with no mark the slot is requeued, by `State.completeFrame_requeues`, or awaits its acknowledgement, by
`State.completeFrame_awaits`; it is settled otherwise, by `State.settleCompletion_outcome`, and during a TRAFFIC RESET
flushed, by `State.flushCompletion_outcome`. -/
theorem frameCompletionOutcomes : Obligations.FrameCompletionOutcomes := by
  refine ⟨fun s h => exec_frameCompletion_idle h, fun s b m m' hb hw hm hm' => ?_⟩
  have hexec : ∀ {u}, s.completeFrame false = u → exec .frameCompletion s = .next u.afterTraffic :=
    exec_frameCompletion_sent hb hw
  refine ⟨fun hf hack hcancel => ⟨fun hrefused => ?_, fun hrefused hkind => ?_⟩, ?_, fun f hf => ⟨fun ht => ?_, ?_⟩⟩
  · exact ⟨_, hexec rfl, State.completeFrame_requeues hb hm hf hack hcancel hrefused rfl⟩
  · exact ⟨_, hexec rfl, State.completeFrame_awaits hb hm hf hack hcancel hrefused hkind rfl⟩
  · rintro e ⟨hf, he⟩
    have hsettles := State.completeFrame_settles hb hm hf (Message.completionEnding_of he)
    refine ⟨fun ht => ?_, fun s₁ r hp ht hr => ?_⟩
    · exact hexec (hsettles.trans (State.settleCompletion_waits (by rwa [Message.afterFrame_owner])))
    · exact ⟨_, hexec hsettles, State.settleCompletion_outcome hm hp ht hr s.dsu.refusal hm' (by rw [hm']; rfl)⟩
  · exact hexec ((State.completeFrame_flushes hb hm hf).trans (State.flushCompletion_waits ht))
  · intro s₁ r hp ht hr
    exact ⟨_, hexec (State.completeFrame_flushes hb hm hf), State.flushCompletion_outcome hm hp ht hr hf rfl⟩

end Sys2Proof.Machine
end


section
namespace Sys2Proof.Machine
open Sys2Proof

/-! ## The end of an event that touches traffic -/

/-! ### What the end of an event leaves -/

/-- What no part of the end of an event writes. -/
structure SettingsPart where
  pins : Pins
  chu : Chu
  lines : Four Line
  rla : Receiver
  rlb : Receiver
  pending : List Instr
  mode : ArbiterMode
  overrides : List Override
  service : ZoneSet
  hold : Bool
  divider : Nat
  w0 : Nat
  aMax : Nat
  holdTime : Nat
  period : Nat
  tick : Tick
  minute : Nat
  state : TableState
  capacity : Nat
  numberIndex : Sparse (List Nat)
  exchange : Option Exchange
  queue : List CommandFrame
  resetSeen : Bool
  dropped : Bool

def State.settingsPart (s : State) : SettingsPart :=
  { pins := s.pins, chu := s.chu, lines := s.lines, rla := s.rla, rlb := s.rlb, pending := s.pending,
    mode := s.dsu.mode, overrides := s.dsu.overrides, service := s.dsu.service, hold := s.dsu.hold,
    divider := s.dsu.divider, w0 := s.aru.w0, aMax := s.aru.aMax, holdTime := s.aru.hold, period := s.pdu.period,
    tick := s.pdu.tick, minute := s.pdu.minute, state := s.stu.state, capacity := s.stu.capacity,
    numberIndex := s.stu.numberIndex, exchange := s.clu.exchange, queue := s.clu.queue, resetSeen := s.clu.resetSeen,
    dropped := s.clu.dropped }

/-- What no take and no move writes: the settings, the outage mark, the TRAFFIC RESET in progress and the commands with
their responses. -/
structure DispatchPart where
  settings : SettingsPart
  outage : Bool
  flush : Option TrafficReset
  responses : List Response
  inProgress : List Progress

def State.dispatchPart (s : State) : DispatchPart :=
  { settings := s.settingsPart, outage := s.dsu.outage, flush := s.msu.flush, responses := s.clu.responses,
    inProgress := s.clu.inProgress }

/-- The kinds of the notices that the outage mark raises (R118). -/
def NoticeKind.ofZones : NoticeKind → Prop
  | .zoneOutage => True
  | .zoneRestored _ => True
  | _ => False

/-- The notices of a take: stored at the tail while the queue holds fewer than 32, and none of them of a zone (R180). -/
def Clu.Grows (c d : Clu) : Prop :=
  ∃ more, (∀ x ∈ more, ¬ x.kind.ofZones) ∧ d.notices = c.notices ++ more ∧ (32 ≤ c.notices.length → more = []) ∧
    (c.overflow = true → d.overflow = true)

theorem Clu.Grows.refl (c : Clu) : c.Grows c := ⟨[], by simp, by simp, fun _ => rfl, id⟩

theorem Clu.Grows.trans {c d e : Clu} (h : c.Grows d) (k : d.Grows e) : c.Grows e := by
  obtain ⟨more, hkinds, hnotices, hfull, hoverflow⟩ := h
  obtain ⟨more', hkinds', hnotices', hfull', hoverflow'⟩ := k
  refine ⟨more ++ more', fun x hx => ?_, by rw [hnotices', hnotices, List.append_assoc], fun hlen => ?_,
    hoverflow' ∘ hoverflow⟩
  · exact (List.mem_append.mp hx).elim (hkinds x) (hkinds' x)
  · have hempty := hfull hlen
    rw [hempty, List.append_nil] at hnotices
    rw [hempty, hfull' (by rwa [hnotices])]; rfl

/-- From `s` to `t` no more is done than takes and moves do. -/
structure State.Dispatched (s t : State) : Prop where
  part : t.dispatchPart = s.dispatchPart
  notices : s.clu.Grows t.clu

namespace State.Dispatched
variable {s t u : State}

theorem refl (s : State) : s.Dispatched s := ⟨rfl, .refl _⟩

theorem trans (h : s.Dispatched t) (k : t.Dispatched u) : s.Dispatched u :=
  ⟨k.part.trans h.part, h.notices.trans k.notices⟩

/-- An operation that raises no notice. -/
theorem congr (h : s.Dispatched t) (hpart : u.dispatchPart = t.dispatchPart) (hclu : u.clu = t.clu) :
    s.Dispatched u :=
  h.trans ⟨hpart, hclu ▸ .refl _⟩

theorem raise (h : s.Dispatched t) {k : NoticeKind} (hk : ¬ k.ofZones) : s.Dispatched (t.raise k) := by
  refine h.trans ?_
  rcases t.raise_cases k with ⟨hlen, hraise⟩ | ⟨-, hraise⟩ <;> rw [hraise]
  · exact ⟨rfl, [⟨k, t.pdu.tick⟩], by simpa using hk, rfl, fun hfull => absurd hlen (Nat.not_lt.mpr hfull), id⟩
  · exact ⟨rfl, [], by simp, by simp, fun _ => rfl, fun _ => rfl⟩

/-! ### Records and the extract -/

theorem updateRecord (h : s.Dispatched t) (i : Nat) (f : Record → Record) : s.Dispatched (t.updateRecord i f) :=
  h.congr (by unfold State.updateRecord; split <;> rfl) (State.updateRecord_clu ..)

theorem wait (h : s.Dispatched t) (anew : Bool) (w : Waiter) : s.Dispatched (t.wait anew w) := h.congr rfl rfl

theorem writeEntry (h : s.Dispatched t) (e : Entry) : s.Dispatched (t.writeEntry e) :=
  h.congr (by unfold State.writeEntry; split <;> rfl) (State.writeEntry_clu ..)

theorem closeRecord (h : s.Dispatched t) (i : Nat) (r : Record) : s.Dispatched (t.closeRecord i r) :=
  (h.writeEntry (r.entry i false)).congr rfl rfl

theorem touch {anew : Bool} {i : Nat} (h : s.Dispatched t) (ht : t.touch anew i = some u) : s.Dispatched u := by
  rcases t.touch_cases anew i with ⟨-, hcase⟩ | ⟨r, -, -, hcase⟩ | ⟨r, -, -, -, hcase⟩ | ⟨r, -, -, -, hcase⟩ <;>
    rw [hcase] at ht <;> cases ht
  · exact h
  · exact h
  · exact h.closeRecord i r

theorem releaseRecord (h : s.Dispatched t) (i : Nat) (r : Record) : s.Dispatched (t.releaseRecord i r) := by
  refine raise ?_ (k := .recordFreed i r.number) id
  exact h.congr rfl rfl

/-- A closing entry that no TRAFFIC RESET counts (R51). -/
theorem writeClosing {anew : Bool} {i : Nat} (h : s.Dispatched t)
    (hw : t.writeClosing anew i (.alone false) = some u) : s.Dispatched u := by
  rcases t.writeClosing_cases anew i (.alone false) with
    ⟨-, hcase⟩ | ⟨r, -, -, -, hcase⟩ | ⟨r, -, -, -, hcase⟩ | ⟨r, -, -, hcase⟩ <;> rw [hcase] at hw <;> cases hw
  · exact h
  · exact (h.writeEntry _).releaseRecord i r
  · exact ((h.closeRecord i r).writeEntry _).releaseRecord i _

theorem freeOwner (h : s.Dispatched t) (anew : Bool) (i : Nat) :
    s.Dispatched (t.freeOwner anew i (.alone false)).1 := by
  rcases t.freeOwner_cases anew i (.alone false) with ⟨-, hcase⟩ | ⟨-, v, hw, hcase⟩ | ⟨-, -, hcase⟩ <;> rw [hcase]
  · exact h
  · exact (h.updateRecord ..).writeClosing hw
  · exact (h.updateRecord ..).wait ..

/-! ### Slots -/

theorem updateMessage (h : s.Dispatched t) (n : Nat) (f : Message → Message) : s.Dispatched (t.updateMessage n f) :=
  h.congr (by unfold State.updateMessage; split <;> rfl) (State.updateMessage_clu ..)

theorem takeOut (h : s.Dispatched t) (n : Nat) (p : Place) : s.Dispatched (t.takeOut n p) :=
  h.congr (by cases p <;> rfl) (State.takeOut_clu ..)

theorem raiseFree (h : s.Dispatched t) : s.Dispatched t.raiseFree := by
  unfold State.raiseFree
  split
  · refine raise ?_ (k := .storeRecovered (t.msu.freeCount + 1)) id
    exact h.congr rfl rfl
  · exact h.congr rfl rfl

theorem settle (h : s.Dispatched t) (e : Ending) (n : Nat) : s.Dispatched (t.settle e n) := by
  cases hm : t.message? n with
  | none => rwa [State.settle_free hm]
  | some m =>
    rw [State.settle_eq hm, State.freeSlot_eq]
    refine raiseFree ?_
    exact (((h.takeOut n m.place).updateRecord ..).updateRecord ..).congr rfl rfl

theorem evictOldest (h : s.Dispatched t) (i : Nat) : s.Dispatched (t.evictOldest i) := by
  unfold State.evictOldest
  split
  · split
    · split
      · exact h.settle ..
      · exact h
    · exact h
  · exact h

theorem hold (h : s.Dispatched t) (n i : Nat) : s.Dispatched (t.hold n i) :=
  ((h.updateRecord i _).updateMessage n _).congr rfl rfl

theorem park (h : s.Dispatched t) (n : Nat) : s.Dispatched (t.park n) := by
  cases hm : t.message? n with
  | none => rw [State.park, hm]; exact h
  | some m =>
    rcases State.park_cases hm with ⟨-, hcase⟩ | ⟨-, hcase⟩ <;> rw [hcase]
    · exact h.settle ..
    · exact ((h.takeOut ..).evictOldest ..).hold ..

/-! ### Takes and moves -/

theorem popQueue (h : s.Dispatched t) (q : QueueName) (n : Nat) (rest : List Nat) :
    s.Dispatched (t.popQueue q n rest) := by
  refine updateMessage ?_ n fun m => { m with origin := q }
  exact h.congr rfl rfl

theorem stage (h : s.Dispatched t) (n : Nat) (m : Message) (r : Record) : s.Dispatched (t.stage n m r) :=
  (h.updateMessage n _).congr rfl rfl

theorem take (h : s.Dispatched t) (anew : Bool) : s.Dispatched (t.take anew) := by
  rcases t.take_cases anew with ⟨-, hcase⟩ | ⟨q, -, -, hcase⟩ |
    ⟨q, n, rest, -, -, ⟨-, hcase⟩ | ⟨m, -, ⟨-, hcase⟩ | ⟨r, -, hcase⟩⟩⟩
  · rwa [hcase]
  · rwa [hcase]
  · rw [hcase]; exact h.popQueue ..
  · rw [hcase]; exact h.popQueue ..
  · rcases hcase with ⟨-, hcase⟩ | ⟨-, -, hcase⟩ | ⟨-, -, -, hcase⟩ | ⟨-, -, v, hv, hcase⟩ <;> rw [hcase]
    · exact (h.popQueue ..).stage ..
    · exact (h.popQueue ..).park ..
    · exact h.wait ..
    · exact (((h.touch hv).popQueue ..).park ..).freeOwner ..

theorem move (h : s.Dispatched t) : s.Dispatched t.move := by
  cases hb : t.dsu.staging with
  | none => rw [State.move, hb]; exact h
  | some b =>
    rw [State.move, hb]
    exact (h.updateMessage b.slot fun m => { m with place := .sending }).congr rfl rfl

theorem dispatchLoop (h : s.Dispatched t) (k : Nat) : s.Dispatched (Machine.dispatchLoop k t) := by
  induction k generalizing t with
  | zero => exact h
  | succ k ih =>
    unfold Machine.dispatchLoop
    split
    · exact ih h.move
    · split
      · exact ih (h.take false)
      · exact h

end State.Dispatched

end Sys2Proof.Machine
end


section
namespace Sys2Proof.Machine
open Sys2Proof

/-! ### The takes and moves of an event come to an end -/

section
variable {s t : State} {d : Dsu} {q : QueueName}

/-- The rotation order of the three queues (R106). -/
theorem Dsu.rotationGood_iff : d.rotationGood = true ↔ d.rotation.length = 3 ∧
    .retry ∈ d.rotation ∧ .normal ∈ d.rotation ∧ .deferred ∈ d.rotation := by
  simp [Dsu.rotationGood, and_assoc]

theorem Dsu.mem_rotation (h : d.rotationGood = true) (hq : q ≠ .urgent) : q ∈ d.rotation := by
  obtain ⟨-, hretry, hnormal, hdeferred⟩ := Dsu.rotationGood_iff.mp h
  cases q with
  | urgent => exact absurd rfl hq
  | normal => exact hnormal
  | deferred => exact hdeferred
  | retry => exact hretry

/-- The order that a take leaves is an order of the same three queues (R110). -/
theorem Dsu.rotationGood_rotate {d' : Dsu} (h : d.rotationGood = true) (q : QueueName)
    (hd' : d'.rotation = d.rotate q) : d'.rotationGood = true := by
  by_cases hturns : d.mode = .rotating ∧ q ≠ .urgent
  · rw [Dsu.rotate, if_pos hturns] at hd'
    obtain ⟨-, hq⟩ := hturns
    have hmem := Dsu.mem_rotation h hq
    have hkeeps : ∀ p, p ∈ d.rotation → p ∈ d'.rotation := fun p hp => by
      rw [hd', List.mem_append, List.mem_singleton]
      by_cases hpq : p = q
      · exact .inr hpq
      · exact .inl ((List.mem_erase_of_ne hpq).mpr hp)
    obtain ⟨hlen, hretry, hnormal, hdeferred⟩ := Dsu.rotationGood_iff.mp h
    refine Dsu.rotationGood_iff.mpr ⟨?_, hkeeps _ hretry, hkeeps _ hnormal, hkeeps _ hdeferred⟩
    rw [hd', List.length_append, List.length_erase_of_mem hmem, hlen]; rfl
  · rw [Dsu.rotate, if_neg hturns] at hd'
    rwa [Dsu.rotationGood_iff, hd', ← Dsu.rotationGood_iff]

theorem Queues.exists_get_ne_nil {p : Queues} (h : p ≠ ⟨[], [], [], []⟩) : ∃ q, p.get q ≠ [] := by
  by_contra hempty
  simp only [not_exists, not_not] at hempty
  exact h ((Queues.mk.injEq ..).mpr ⟨hempty .urgent, hempty .normal, hempty .deferred, hempty .retry⟩)

/-- With traffic on a queue there is a queue to serve, and it has a head (R109, R110). -/
theorem Dsu.exists_serve (h : d.rotationGood = true) (hqueues : d.queues ≠ ⟨[], [], [], []⟩) :
    ∃ q n rest, d.serve = some q ∧ d.queues.get q = n :: rest := by
  obtain ⟨q, hq⟩ := Queues.exists_get_ne_nil hqueues
  have hserve : d.serve.isSome = true := by
    simp only [Dsu.serve, List.find?_isSome]
    refine ⟨q, ?_, by simpa using hq⟩
    cases d.mode with
    | fixed => cases q <;> simp
    | rotating =>
      by_cases hu : q = .urgent
      · simp [hu]
      · exact List.mem_cons_of_mem _ (Dsu.mem_rotation h hu)
  obtain ⟨k, hk⟩ := Option.isSome_iff_exists.mp hserve
  have hget : d.queues.get k ≠ [] := by
    have hfound := List.find?_some hk
    simpa using hfound
  obtain ⟨n, rest, hcons⟩ := List.exists_cons_of_ne_nil hget
  exact ⟨k, n, rest, hk, hcons⟩

/-! ### A take leaves fewer slots on the queues, or waits -/

/-- `t` has no more slots on its queues than `s`, and the same rotation order. -/
structure State.NoMoreQueued (s t : State) : Prop where
  total : t.dsu.queues.total ≤ s.dsu.queues.total
  rotation : t.dsu.rotation = s.dsu.rotation

theorem State.NoMoreQueued.trans {u : State} (h : s.NoMoreQueued t) (k : t.NoMoreQueued u) : s.NoMoreQueued u :=
  ⟨k.total.trans h.total, k.rotation.trans h.rotation⟩

theorem State.NoMoreQueued.of_dsu (h : t.dsu = s.dsu) : s.NoMoreQueued t := ⟨by rw [h], by rw [h]⟩

theorem Queues.total_erase_le (p : Queues) (n : Nat) : (p.erase n).total ≤ p.total :=
  Nat.add_le_add (Nat.add_le_add (Nat.add_le_add (List.length_erase_le) List.length_erase_le) List.length_erase_le)
    List.length_erase_le

theorem Queues.total_set_tail {p : Queues} {n : Nat} {rest : List Nat} (h : p.get q = n :: rest) :
    (p.set q rest).total + 1 = p.total := by
  cases q <;> simp only [Queues.get] at h <;> simp only [Queues.set, Queues.total, h, List.length_cons] <;> omega

theorem State.takeOut_noMoreQueued (s : State) (n : Nat) (p : Place) : s.NoMoreQueued (s.takeOut n p) := by
  cases p with
  | queued => exact ⟨Queues.total_erase_le .., rfl⟩
  | _ => exact ⟨le_rfl, rfl⟩

theorem State.settle_noMoreQueued (s : State) (e : Ending) (n : Nat) : s.NoMoreQueued (s.settle e n) := by
  cases hm : s.message? n with
  | none => exact .of_dsu (by rw [State.settle_free hm])
  | some m => exact (s.takeOut_noMoreQueued n m.place).trans (.of_dsu (State.settle_places hm).1)

theorem State.evictOldest_noMoreQueued (s : State) (i : Nat) : s.NoMoreQueued (s.evictOldest i) := by
  unfold State.evictOldest
  split
  · split
    · split
      · exact s.settle_noMoreQueued ..
      · exact .of_dsu rfl
    · exact .of_dsu rfl
  · exact .of_dsu rfl

theorem State.park_noMoreQueued (s : State) (n : Nat) : s.NoMoreQueued (s.park n) := by
  cases hm : s.message? n with
  | none => exact .of_dsu (by rw [State.park, hm])
  | some m =>
    rcases State.park_cases hm with ⟨-, hcase⟩ | ⟨-, hcase⟩ <;> rw [hcase]
    · exact s.settle_noMoreQueued ..
    · exact ((s.takeOut_noMoreQueued n m.place).trans (State.evictOldest_noMoreQueued ..)).trans
        (.of_dsu (State.hold_dsu ..))

/-- A take, with traffic on a queue, takes a slot from the queues for good, or makes the arbiter wait (R111, R112). -/
theorem State.take_progress (h : s.dsu.rotationGood = true) (hqueues : s.dsu.queues ≠ ⟨[], [], [], []⟩) :
    (s.take false).dsu.rotationGood = true ∧
      ((s.take false).dsu.queues.total < s.dsu.queues.total ∨ s.take false = s.wait false .arbiter) := by
  obtain ⟨q, n, rest, hserve, hget⟩ := Dsu.exists_serve h hqueues
  have hpop : ∀ {v t : State}, v.dsu = s.dsu → (v.popQueue q n rest).NoMoreQueued t →
      t.dsu.rotationGood = true ∧ (t.dsu.queues.total < s.dsu.queues.total ∨ t = s.wait false .arbiter) := by
    rintro v t hv ⟨hle, hrotation⟩
    rw [State.popQueue_dsu, hv] at hle hrotation
    have hless := Queues.total_set_tail hget
    dsimp only at hle
    exact ⟨Dsu.rotationGood_rotate h q hrotation, .inl (by omega)⟩
  rcases s.take_cases false with ⟨hnone, -⟩ | ⟨q', hserve', hnil, -⟩ | ⟨q', n', rest', hserve', hget', hcase⟩
  · rw [hserve] at hnone; cases hnone
  · rw [hserve] at hserve'; cases hserve'; rw [hget] at hnil; cases hnil
  rw [hserve] at hserve'; cases hserve'
  rw [hget] at hget'; cases hget'
  rcases hcase with ⟨-, ht⟩ | ⟨m, -, ⟨-, ht⟩ | ⟨r, -, ⟨-, ht⟩ | ⟨-, -, ht⟩ | ⟨-, -, -, ht⟩ | ⟨-, -, v, hv, ht⟩⟩⟩ <;>
    rw [ht]
  · exact hpop rfl (.of_dsu rfl)
  · exact hpop rfl (.of_dsu rfl)
  · exact hpop rfl ⟨by simp [State.stage], by simp [State.stage]⟩
  · exact hpop rfl (State.park_noMoreQueued ..)
  · exact ⟨h, .inr rfl⟩
  · obtain ⟨-, -, -, -, -, -, hdsu, -⟩ := ((v.popQueue q n rest).park n).freeOwner_frame false m.owner (.alone false)
    exact hpop (State.touch_tableOnly hv).dsu ((State.park_noMoreQueued ..).trans (.of_dsu hdsu))

/-! ### The loop of takes and moves ends with none allowed -/

/-- A bound on the takes and moves still to come: two for each slot on a queue, one for the staged slot, and one take
that makes the arbiter wait. -/
def State.work (s : State) : Nat :=
  2 * s.dsu.queues.total + s.dsu.staging.isSome.toNat + (!s.arbiterWaits).toNat

theorem State.work_move (h : s.moveAllowed = true) : s.move.work < s.work ∧
    s.move.dsu.rotation = s.dsu.rotation := by
  obtain ⟨hstaging, -⟩ := State.moveAllowed_iff_conditions.mp h
  obtain ⟨b, hb⟩ := Option.isSome_iff_exists.mp hstaging
  simp [State.work, State.move_eq hb, hb, State.arbiterWaits]

theorem State.work_take (hrotation : s.dsu.rotationGood = true) (h : s.takeAllowed = true) :
    (s.take false).work < s.work ∧ (s.take false).dsu.rotationGood = true := by
  obtain ⟨hstaging, hqueues, -, -, harbiter, -⟩ := State.takeAllowed_iff_conditions.mp h
  obtain ⟨hgood, hprogress⟩ := State.take_progress hrotation hqueues
  have hwaits : s.arbiterWaits = false := by rwa [← Bool.not_eq_true, State.arbiterWaits_iff]
  refine ⟨?_, hgood⟩
  rcases hprogress with hless | hwait
  · have hstaged := (s.take false).dsu.staging.isSome.toNat_le
    have hwaiting := (!(s.take false).arbiterWaits).toNat_le
    simp only [State.work, hwaits, Bool.not_false, Bool.toNat_true]
    omega
  · have hnow : (s.wait false .arbiter).arbiterWaits = true := State.arbiterWaits_iff.mpr (by simp [State.wait])
    simp [hwait, State.work, hwaits, hnow]

theorem dispatchLoop_ends (k : Nat) (hrotation : s.dsu.rotationGood = true) (hwork : s.work < k) :
    (dispatchLoop k s).takeAllowed = false ∧ (dispatchLoop k s).moveAllowed = false := by
  induction k generalizing s with
  | zero => exact absurd hwork (Nat.not_lt_zero _)
  | succ k ih =>
    unfold dispatchLoop
    split
    next hmove =>
      obtain ⟨hless, hsame⟩ := State.work_move hmove
      exact ih (by rwa [Dsu.rotationGood_iff, hsame, ← Dsu.rotationGood_iff]) (by omega)
    next hmove =>
      split
      next htake =>
        obtain ⟨hless, hgood⟩ := State.work_take hrotation htake
        exact ih hgood (by omega)
      next htake => exact ⟨Bool.eq_false_iff.mpr htake, Bool.eq_false_iff.mpr hmove⟩

/-- The count that the model gives the loop is never used up. -/
theorem State.dispatch_ends (hrotation : s.dsu.rotationGood = true) :
    s.dispatch.takeAllowed = false ∧ s.dispatch.moveAllowed = false := by
  refine dispatchLoop_ends _ hrotation ?_
  have hstaged := s.dsu.staging.isSome.toNat_le
  have hwaiting := (!s.arbiterWaits).toNat_le
  simp only [State.work]
  omega

theorem State.dispatch_idle (htake : s.takeAllowed = false) (hmove : s.moveAllowed = false) : s.dispatch = s := by
  simp [State.dispatch, dispatchLoop, htake, hmove]

end

end Sys2Proof.Machine
end


section
namespace Sys2Proof.Machine
open Sys2Proof

/-! ### The parts of the end of an event around the takes and moves -/

section
variable {s t : State} {f : TrafficReset} {g : Progress}

theorem State.raise_eq (s : State) (k : NoticeKind) : ∃ clu, s.raise k = { s with clu } := by
  rcases s.raise_cases k with ⟨-, h⟩ | ⟨-, h⟩ <;> exact ⟨_, h⟩

theorem State.markOutage_eq (s : State) :
    ∃ outage clu, s.markOutage = { s with dsu := { s.dsu with outage }, clu } := by
  rcases s.markOutage_cases with ⟨-, h⟩ | ⟨-, h⟩ <;> rw [h]
  · obtain ⟨clu, hraise⟩ := State.raise_eq { s with dsu := { s.dsu with outage := true } } .zoneOutage
    exact ⟨_, clu, hraise⟩
  · exact ⟨_, _, rfl⟩

theorem State.restoreZones_eq (s : State) :
    ∃ outage clu, s.restoreZones = { s with dsu := { s.dsu with outage }, clu } := by
  rcases s.restoreZones_cases with ⟨-, -, h⟩ | ⟨-, h⟩ <;> rw [h]
  · obtain ⟨clu, hraise⟩ :=
      State.raise_eq { s with dsu := { s.dsu with outage := false } } (.zoneRestored s.liveZones)
    exact ⟨_, clu, hraise⟩
  · exact ⟨_, _, rfl⟩

theorem State.resumeSweep_eq (s : State) : ∃ sweep, s.resumeSweep = { s with pdu := { s.pdu with sweep } } := by
  rcases s.resumeSweep_cases with ⟨-, -, h⟩ | ⟨-, h⟩ <;> exact ⟨_, h⟩

/-! ### Zones -/

theorem State.liveZones_settingsPart (h : t.settingsPart = s.settingsPart) : t.liveZones = s.liveZones :=
  State.liveZones_congr (congrArg SettingsPart.pins h) (congrArg SettingsPart.service h)
    (congrArg SettingsPart.overrides h)

/-! ### What the whole end of an event leaves -/

theorem State.settingsPart_raise (s : State) (k : NoticeKind) : (s.raise k).settingsPart = s.settingsPart := by
  rcases s.raise_cases k with ⟨-, h⟩ | ⟨-, h⟩ <;> rw [h] <;> rfl

theorem State.settingsPart_completeReset (s : State) : s.completeReset.settingsPart = s.settingsPart := by
  rcases s.completeReset_cases with ⟨-, h⟩ | ⟨f, -, -, h⟩ <;> rw [h]
  rcases State.complete_cases { s with msu := { s.msu with flush := none } } f.place .ok
    (nat2 f.flushed ++ nat2 f.freed) with ⟨g, -, -, hc⟩ | ⟨-, hc⟩ <;> rw [hc] <;> rfl

theorem State.settingsPart_restoreZones (s : State) : s.restoreZones.settingsPart = s.settingsPart := by
  rcases s.restoreZones_cases with ⟨-, -, h⟩ | ⟨-, h⟩ <;> rw [h]
  exact State.settingsPart_raise ..

theorem State.settingsPart_markOutage (s : State) : s.markOutage.settingsPart = s.settingsPart := by
  rcases s.markOutage_cases with ⟨-, h⟩ | ⟨-, h⟩ <;> rw [h]
  exact State.settingsPart_raise ..

theorem State.settingsPart_resumeSweep (s : State) : s.resumeSweep.settingsPart = s.settingsPart := by
  obtain ⟨sweep, h⟩ := s.resumeSweep_eq
  rw [h]; rfl

theorem State.dispatched (s : State) : s.Dispatched s.dispatch := (State.Dispatched.refl s).dispatchLoop _

theorem State.settingsPart_dispatch (s : State) : s.dispatch.settingsPart = s.settingsPart :=
  congrArg DispatchPart.settings s.dispatched.part

theorem State.settingsPart_afterTraffic (s : State) : s.afterTraffic.settingsPart = s.settingsPart := by
  rw [State.afterTraffic, State.settingsPart_resumeSweep, State.settingsPart_markOutage, State.settingsPart_dispatch,
    State.settingsPart_restoreZones, State.settingsPart_completeReset]

/-! ### The completion of a TRAFFIC RESET -/

theorem State.resetClosingWaits_iff : s.resetClosingWaits = true ↔
    ∃ i, Waiter.closing i .walk ∈ s.pdu.waiters ∨ Waiter.closing i (.alone true) ∈ s.pdu.waiters := by
  rw [State.resetClosingWaits, List.any_eq_true]
  constructor
  · rintro ⟨w, hw, hkind⟩
    split at hkind
    next i => exact ⟨i, .inl hw⟩
    next i => exact ⟨i, .inr hw⟩
    next => cases hkind
  · rintro ⟨i, hw | hw⟩
    · exact ⟨_, hw, rfl⟩
    · exact ⟨_, hw, rfl⟩

/-- The three things of R51. -/
theorem State.resetDone_iff : s.resetDone f = true ↔ 2048 ≤ f.cursor ∧ s.dsu.sending = none ∧
    ∀ i, Waiter.closing i .walk ∉ s.pdu.waiters ∧ Waiter.closing i (.alone true) ∉ s.pdu.waiters := by
  have hwaits : s.resetClosingWaits = false ↔
      ∀ i, Waiter.closing i .walk ∉ s.pdu.waiters ∧ Waiter.closing i (.alone true) ∉ s.pdu.waiters := by
    rw [← Bool.not_eq_true, State.resetClosingWaits_iff]
    push Not
    rfl
  rw [State.resetDone, Bool.and_eq_true, Bool.and_eq_true, decide_eq_true_iff, Option.isNone_iff_eq_none,
    Bool.not_eq_true', hwaits, and_assoc]
  rfl

theorem State.completeReset_undone (h : ∀ f, s.msu.flush = some f → s.resetDone f = false) : s.completeReset = s := by
  rcases s.completeReset_cases with ⟨-, hcase⟩ | ⟨f, hf, hdone, -⟩
  · exact hcase
  · rw [h f hf] at hdone; cases hdone

/-- After it no TRAFFIC RESET is left that could end (R51). -/
theorem State.completeReset_flush (s : State) :
    s.completeReset.msu.flush = none ∨
      (s.completeReset = s ∧ ∃ f, s.msu.flush = some f ∧ s.resetDone f = false) := by
  rcases s.completeReset_cases with ⟨hnone | hf, hcase⟩ | ⟨f, -, -, hcase⟩
  · exact .inl (by rw [hcase, hnone])
  · exact .inr ⟨hcase, hf⟩
  · exact .inl (by rw [hcase, State.complete_msu])

/-- With no TRAFFIC RESET left, or with one that is done, none is left (R51). -/
theorem State.completeReset_flush_none_iff : s.completeReset.msu.flush = none ↔
    s.msu.flush = none ∨ ∃ f, s.msu.flush = some f ∧ s.resetDone f = true := by
  rcases s.completeReset_cases with ⟨hnone | ⟨f, hf, hdone⟩, hcase⟩ | ⟨f, hf, hdone, hcase⟩ <;> rw [hcase]
  · simp [hnone]
  · simp [hf, hdone]
  · rw [State.complete_msu]
    simp [hf, hdone]

theorem State.completeReset_notices (s : State) : s.completeReset.clu.notices = s.clu.notices := by
  rcases s.completeReset_cases with ⟨-, h⟩ | ⟨f, -, -, h⟩ <;> rw [h]
  rcases State.complete_cases { s with msu := { s.msu with flush := none } } f.place .ok
    (nat2 f.flushed ++ nat2 f.freed) with ⟨g, -, -, hc⟩ | ⟨-, hc⟩ <;> rw [hc]
  rfl

/-- The command of a TRAFFIC RESET that is done is answered with its two counts (R51, R176). -/
theorem State.completeReset_done (hf : s.msu.flush = some f) (hdone : s.resetDone f = true)
    (hg : s.clu.inProgress.find? (fun g => g.place == f.place) = some g) :
    s.completeReset.msu.flush = none ∧ s.completeReset.clu.inProgress = s.clu.inProgress.erase g ∧
      s.completeReset.clu.responses =
        s.clu.responses ++ [⟨g.code, g.tag, .ok, nat2 f.flushed ++ nat2 f.freed⟩] := by
  simp [State.completeReset, hf, hdone, State.complete, hg]

/-- Only the completion of a TRAFFIC RESET makes a response (R51). -/
theorem State.afterTraffic_commands (s : State) : s.afterTraffic.msu.flush = s.completeReset.msu.flush ∧
    s.afterTraffic.clu.inProgress = s.completeReset.clu.inProgress ∧
    s.afterTraffic.clu.responses = s.completeReset.clu.responses := by
  have hrestored : ∀ u : State, u.restoreZones.clu.inProgress = u.clu.inProgress ∧
      u.restoreZones.clu.responses = u.clu.responses := by
    intro u
    rcases u.restoreZones_cases with ⟨-, -, h⟩ | ⟨-, h⟩ <;> simp [h]
  have hmarked : ∀ u : State, u.markOutage.clu.inProgress = u.clu.inProgress ∧
      u.markOutage.clu.responses = u.clu.responses := by
    intro u
    rcases u.markOutage_cases with ⟨-, h⟩ | ⟨-, h⟩ <;> simp [h]
  have hpart := s.completeReset.restoreZones.dispatched.part
  have hflush := congrArg DispatchPart.flush hpart
  have hprogress := congrArg DispatchPart.inProgress hpart
  have hresponses := congrArg DispatchPart.responses hpart
  simp only [State.dispatchPart] at hflush hprogress hresponses
  simp [State.afterTraffic, hrestored, hmarked, hflush, hprogress, hresponses]

/-! ### Nothing is left over -/

theorem State.outageDue_markOutage (s : State) : s.markOutage.outageDue = false := by
  rcases s.markOutage_cases with ⟨-, h⟩ | ⟨hno, h⟩ <;> rw [h]
  · simp [State.outageDue]
  · exact hno

theorem State.restoreZones_clear (s : State) : s.restoreZones.dsu.outage = false ∨ s.restoreZones.liveZones = 0 := by
  rcases s.restoreZones_cases with ⟨-, -, h⟩ | ⟨hclear, h⟩ <;> rw [h]
  · exact .inl (by simp)
  · exact hclear

/-- The outage mark that stands with a zone live is cleared, and none is set (R118). -/
theorem State.afterTraffic_outage_clear (s : State) :
    s.afterTraffic.dsu.outage = false ∨ s.afterTraffic.liveZones = 0 := by
  obtain ⟨u, hu⟩ : ∃ u, s.completeReset.restoreZones.dispatch = u := ⟨_, rfl⟩
  have hclear : u.dsu.outage = false ∨ u.liveZones = 0 := by
    have hpart := s.completeReset.restoreZones.dispatched.part
    rw [hu] at hpart
    have houtage : u.dsu.outage = _ := congrArg DispatchPart.outage hpart
    rw [houtage, State.liveZones_settingsPart (congrArg DispatchPart.settings hpart)]
    exact State.restoreZones_clear _
  have hlive : s.afterTraffic.liveZones = u.liveZones := by
    rw [State.afterTraffic, hu]
    exact State.liveZones_settingsPart ((State.settingsPart_resumeSweep _).trans (State.settingsPart_markOutage _))
  rw [hlive]
  rcases u.markOutage_cases with ⟨hdue, -⟩ | ⟨-, hmark⟩
  · obtain ⟨-, hdark, -⟩ := State.outageDue_iff_conditions.mp hdue
    exact .inr hdark
  · rw [State.afterTraffic, hu, hmark, State.resumeSweep_dsu]
    exact hclear

theorem State.resumeSweep_moving (s : State) :
    ¬ (s.resumeSweep.pdu.sweep = .stalled ∧ s.resumeSweep.sweepBlocked = false) := by
  rcases s.resumeSweep_cases with ⟨-, -, h⟩ | ⟨hno, h⟩ <;> rw [h]
  · simp
  · exact hno

theorem State.sweepBlocked_iff : s.sweepBlocked = false ↔ s.pdu.extract.length < 56 ∧ s.pdu.waiters = [] := by
  rw [State.sweepBlocked, Bool.or_eq_false_iff, decide_eq_false_iff_not, not_le, Bool.not_eq_false', List.isEmpty_iff]
  rfl

/-- The marks that end the event allow no take and no move that the loop did not (R108, R120). -/
theorem State.afterTraffic_allows (s : State) :
    s.afterTraffic.takeAllowed = s.completeReset.restoreZones.dispatch.takeAllowed ∧
      s.afterTraffic.moveAllowed = s.completeReset.restoreZones.dispatch.moveAllowed ∧
      s.afterTraffic.outageDue = false := by
  obtain ⟨u, hu⟩ : ∃ u, s.completeReset.restoreZones.dispatch = u := ⟨_, rfl⟩
  obtain ⟨outage, clu, hmark⟩ := u.markOutage_eq
  obtain ⟨sweep, hresume⟩ := u.markOutage.resumeSweep_eq
  have hdue := u.outageDue_markOutage
  rw [State.afterTraffic, hu, hresume]
  rw [hmark] at hdue ⊢
  exact ⟨rfl, rfl, hdue⟩

end

end Sys2Proof.Machine
end


section
namespace Sys2Proof.Machine
open Sys2Proof

/-! ### The outage mark and its notices -/

section
variable {s : State} {f : TrafficReset}

/-- A full notice queue stores no notice (R180). -/
theorem State.raise_full {k : NoticeKind} (h : 32 ≤ s.clu.notices.length) :
    (s.raise k).clu.notices = s.clu.notices ∧ (s.raise k).clu.overflow = true := by
  rcases s.raise_cases k with ⟨hlen, -⟩ | ⟨-, hraise⟩
  · omega
  · rw [hraise]; exact ⟨rfl, rfl⟩

theorem State.markOutage_due (hdue : s.outageDue = true) : s.markOutage.dsu.outage = true ∧
    (s.clu.notices.length < 32 → s.markOutage.clu.notices = s.clu.notices ++ [⟨.zoneOutage, s.pdu.tick⟩]) ∧
    (32 ≤ s.clu.notices.length → s.markOutage.clu.notices = s.clu.notices ∧ s.markOutage.clu.overflow = true) := by
  rw [State.markOutage, if_pos hdue]
  exact ⟨by rw [State.raise_dsu], State.raise_notices (s := { s with dsu := { s.dsu with outage := true } }),
    State.raise_full (s := { s with dsu := { s.dsu with outage := true } })⟩

theorem State.markOutage_not_due (hdue : ¬ s.outageDue = true) : s.markOutage = s := if_neg hdue

/-- With no zone live the event makes no take, and at most one move (R108, R120). -/
theorem State.dispatch_dark (hdark : s.liveZones = 0) : s.dispatch = if s.moveAllowed then s.move else s := by
  have hnotake : ∀ u : State, u.liveZones = 0 → u.takeAllowed = false := fun u hu =>
    Bool.eq_false_iff.mpr fun htake => by
      obtain ⟨-, -, hlive, -⟩ := State.takeAllowed_iff_conditions.mp htake
      exact hlive hu
  cases hmove : s.moveAllowed with
  | false => exact State.dispatch_idle (hnotake s hdark) hmove
  | true =>
    have hsending : s.move.dsu.sending.isSome = true := by
      obtain ⟨hstaging, -⟩ := State.moveAllowed_iff_conditions.mp hmove
      obtain ⟨b, hb⟩ := Option.isSome_iff_exists.mp hstaging
      simp [State.move_eq hb]
    have hmoved : s.move.moveAllowed = false := Bool.eq_false_iff.mpr fun hagain => by
      rw [State.moveAllowed_sending hagain] at hsending
      cases hsending
    have hdark' : s.move.liveZones = 0 :=
      (State.liveZones_settingsPart (congrArg DispatchPart.settings (State.Dispatched.refl s).move.part)).trans hdark
    simp [State.dispatch, dispatchLoop, hmove, hmoved, hnotake _ hdark']

theorem State.dispatch_dark_clu (hdark : s.liveZones = 0) : s.dispatch.clu = s.clu := by
  rw [State.dispatch_dark hdark]
  split
  · exact State.move_clu ..
  · rfl

/-- ZONE OUTAGE is due after the takes and moves when traffic waits behind a staging buffer that is empty, or that the
move of this event empties (R118). -/
theorem State.outageDue_dispatch (hdark : s.liveZones = 0) : s.dispatch.outageDue = true ↔ s.dsu.outage = false ∧
    s.dsu.queues ≠ ⟨[], [], [], []⟩ ∧ s.msu.flush = none ∧ (s.dsu.staging = none ∨ (s.dsu.sending = none ∧
      s.pins.ready = true ∧ s.pins.ehold = false ∧ s.dsu.hold = false)) := by
  rw [State.dispatch_dark hdark]
  split
  next hmove =>
    obtain ⟨hstaging, hsending, hready, hehold, hhold, hflush⟩ := State.moveAllowed_iff_conditions.mp hmove
    obtain ⟨b, hb⟩ := Option.isSome_iff_exists.mp hstaging
    have hpart := (State.Dispatched.refl s).move.part
    have hflush' : s.move.msu.flush = s.msu.flush := congrArg DispatchPart.flush hpart
    rw [State.outageDue_iff_conditions, State.liveZones_settingsPart (congrArg DispatchPart.settings hpart), hflush']
    simp [State.move_eq hb, hdark, hflush, hsending, hready, hehold, hhold]
  next hmove =>
    rw [State.moveAllowed_iff_conditions, Option.isSome_iff_ne_none] at hmove
    rw [State.outageDue_iff_conditions]
    tauto

/-- What ZONE RESTORED adds to the notices (R118, R180). -/
theorem State.restoreZones_notices (hlive : s.liveZones ≠ 0) :
    (s.clu.notices.length < 32 → s.restoreZones.clu.notices = s.clu.notices ++
      if s.dsu.outage then [⟨.zoneRestored s.liveZones, s.pdu.tick⟩] else []) ∧
    (32 ≤ s.clu.notices.length → s.restoreZones.clu.notices = s.clu.notices ∧
      (s.dsu.outage = true → s.restoreZones.clu.overflow = true)) := by
  by_cases houtage : s.dsu.outage = true
  · rw [State.restoreZones, if_pos ⟨houtage, hlive⟩, if_pos houtage]
    refine ⟨State.raise_notices (s := { s with dsu := { s.dsu with outage := false } }), fun hfull => ?_⟩
    obtain ⟨hnotices, hoverflow⟩ := State.raise_full (s := { s with dsu := { s.dsu with outage := false } })
      (k := .zoneRestored s.liveZones) hfull
    exact ⟨hnotices, fun _ => hoverflow⟩
  · rw [State.restoreZones, if_neg fun h => houtage h.1, if_neg houtage]
    exact ⟨fun _ => by simp, fun _ => ⟨rfl, fun h => absurd h houtage⟩⟩

/-! ### The clauses of the obligation -/

/-- An event that allows nothing ends as it stands. -/
theorem State.afterTraffic_idle (htake : s.takeAllowed = false) (hmove : s.moveAllowed = false)
    (hdue : s.outageDue = false) (hzones : s.dsu.outage = false ∨ s.liveZones = 0)
    (hreset : ∀ f, s.msu.flush = some f → s.resetDone f = false)
    (hsweep : s.pdu.sweep ≠ .stalled ∨ 56 ≤ s.pdu.extract.length ∨ s.pdu.waiters ≠ []) : s.afterTraffic = s := by
  have hrestored : s.restoreZones = s := by
    rcases s.restoreZones_cases with ⟨houtage, hlive, -⟩ | ⟨-, h⟩
    · exact absurd hzones (by simpa [houtage] using hlive)
    · exact h
  have hresumed : s.resumeSweep = s := if_neg fun ⟨hstalled, hfree⟩ => by
    obtain ⟨hextract, hwaiters⟩ := State.sweepBlocked_iff.mp hfree
    rcases hsweep with h | h | h
    · exact h hstalled
    · omega
    · exact h hwaiters
  rw [State.afterTraffic, State.completeReset_undone hreset, hrestored, State.dispatch_idle htake hmove,
    State.markOutage_not_due (by simp [hdue]), hresumed]

/-- No TRAFFIC RESET that R51 completes is left: with one still in progress the event takes and moves nothing. -/
theorem State.afterTraffic_reset_undone (hf : s.afterTraffic.msu.flush = some f) :
    s.afterTraffic.resetDone f = false := by
  obtain ⟨hflush, -⟩ := s.afterTraffic_commands
  rw [hflush] at hf
  rcases s.completeReset_flush with hnone | ⟨hsame, f', hf', hundone⟩
  · rw [hnone] at hf; cases hf
  rw [hsame, hf'] at hf
  cases hf
  have hidle : ∀ u : State, u.msu.flush = some f → u.dispatch = u := fun u hu => State.dispatch_idle
    (Bool.eq_false_iff.mpr fun h => by
      obtain ⟨-, -, -, hnone, -⟩ := State.takeAllowed_iff_conditions.mp h
      rw [hnone] at hu; cases hu)
    (Bool.eq_false_iff.mpr fun h => by
      obtain ⟨-, -, -, -, -, hnone⟩ := State.moveAllowed_iff_conditions.mp h
      rw [hnone] at hu; cases hu)
  have hdispatch := hidle s.restoreZones (by rw [State.restoreZones_msu, hf'])
  obtain ⟨outage, clu, hrestore⟩ := s.restoreZones_eq
  obtain ⟨outage', clu', hmark⟩ := s.restoreZones.markOutage_eq
  obtain ⟨sweep, hresume⟩ := s.restoreZones.markOutage.resumeSweep_eq
  rw [State.afterTraffic, hsame, hdispatch, hresume, hmark, hrestore]
  exact hundone

/-- Every take, move, mark, completion and resumption allowed is made. -/
theorem State.afterTraffic_complete (hrotation : s.dsu.rotationGood = true) : s.afterTraffic.takeAllowed = false ∧
    s.afterTraffic.moveAllowed = false ∧ s.afterTraffic.outageDue = false := by
  obtain ⟨outage, clu, hrestore⟩ := s.completeReset.restoreZones_eq
  have hgood : s.completeReset.restoreZones.dsu.rotationGood = true := by
    rw [hrestore, State.completeReset_dsu]; exact hrotation
  obtain ⟨htake, hmove⟩ := State.dispatch_ends hgood
  obtain ⟨htake', hmove', hdue⟩ := s.afterTraffic_allows
  exact ⟨htake'.trans htake, hmove'.trans hmove, hdue⟩

/-- The outage mark and ZONE OUTAGE, with no zone live (R118). -/
theorem State.afterTraffic_dark (hdark : s.liveZones = 0) :
    (s.completeReset.dispatch.outageDue = true → s.afterTraffic.dsu.outage = true ∧
      (s.clu.notices.length < 32 → s.afterTraffic.clu.notices = s.clu.notices ++ [⟨.zoneOutage, s.pdu.tick⟩]) ∧
      (32 ≤ s.clu.notices.length →
        s.afterTraffic.clu.notices = s.clu.notices ∧ s.afterTraffic.clu.overflow = true)) ∧
    (¬ s.completeReset.dispatch.outageDue = true →
      s.afterTraffic.dsu.outage = s.dsu.outage ∧ s.afterTraffic.clu.notices = s.clu.notices) := by
  have hdark' : s.completeReset.liveZones = 0 :=
    (State.liveZones_settingsPart s.settingsPart_completeReset).trans hdark
  have hrestored : s.completeReset.restoreZones = s.completeReset := if_neg fun h => h.2 hdark'
  have hnotices : s.completeReset.dispatch.clu.notices = s.clu.notices := by
    rw [State.dispatch_dark_clu hdark', State.completeReset_notices]
  have hpart := s.completeReset.dispatched.part
  have htick : s.completeReset.dispatch.pdu.tick = s.completeReset.pdu.tick :=
    congrArg (fun p => p.settings.tick) hpart
  have houtage : s.completeReset.dispatch.dsu.outage = s.completeReset.dsu.outage := congrArg DispatchPart.outage hpart
  rw [State.afterTraffic, hrestored, State.resumeSweep_dsu, State.resumeSweep_clu]
  refine ⟨fun hdue => ?_, fun hdue => ?_⟩
  · rw [← hnotices, ← s.completeReset_pdu, ← htick]
    exact State.markOutage_due hdue
  · rw [State.markOutage_not_due hdue]
    exact ⟨houtage.trans (by rw [State.completeReset_dsu]), hnotices⟩

/-- The outage mark and ZONE RESTORED, with a zone live (R118). -/
theorem State.afterTraffic_live (hlive : s.liveZones ≠ 0) : s.afterTraffic.dsu.outage = false ∧
    ∃ more, (∀ x ∈ more, x.kind ≠ .zoneOutage ∧ ∀ z, x.kind ≠ .zoneRestored z) ∧
      (s.clu.notices.length < 32 → s.afterTraffic.clu.notices = s.clu.notices ++
        (if s.dsu.outage then [⟨.zoneRestored s.liveZones, s.pdu.tick⟩] else []) ++ more) ∧
      (32 ≤ s.clu.notices.length → s.afterTraffic.clu.notices = s.clu.notices ∧
        (s.dsu.outage = true → s.afterTraffic.clu.overflow = true)) := by
  have hlive₁ : s.completeReset.liveZones = s.liveZones := State.liveZones_settingsPart s.settingsPart_completeReset
  have hlive₃ : s.completeReset.restoreZones.dispatch.liveZones = s.liveZones := State.liveZones_settingsPart
    (((State.settingsPart_dispatch _).trans (State.settingsPart_restoreZones _)).trans s.settingsPart_completeReset)
  have hmark := State.markOutage_not_due (s := s.completeReset.restoreZones.dispatch) fun hdue => by
    obtain ⟨-, hdark, -⟩ := State.outageDue_iff_conditions.mp hdue
    exact hlive (hlive₃.symm.trans hdark)
  have hclu : s.afterTraffic.clu = s.completeReset.restoreZones.dispatch.clu := by
    rw [State.afterTraffic, hmark, State.resumeSweep_clu]
  obtain ⟨hroom, hfull⟩ := State.restoreZones_notices (hlive₁.symm ▸ hlive)
  rw [s.completeReset_notices, hlive₁, s.completeReset_dsu, s.completeReset_pdu] at hroom
  rw [s.completeReset_notices, s.completeReset_dsu] at hfull
  obtain ⟨more, hkinds, hmore, hnone, hoverflow⟩ := s.completeReset.restoreZones.dispatched.notices
  refine ⟨s.afterTraffic_outage_clear.resolve_right ?_, more, fun x hx => ⟨fun h => ?_, fun z h => ?_⟩, fun hlen => ?_,
    fun hlen => ?_⟩
  · rwa [State.liveZones_settingsPart s.settingsPart_afterTraffic]
  · exact hkinds x hx (by rw [h]; trivial)
  · exact hkinds x hx (by rw [h]; trivial)
  · rw [hclu, hmore, hroom hlen]
  · obtain ⟨hsame, hmarked⟩ := hfull hlen
    rw [hclu, hmore, hnone (by rwa [hsame]), List.append_nil, hsame]
    exact ⟨rfl, fun h => hoverflow (hmarked h)⟩

end

/-- Settles O59: the end of an event is the completion of a TRAFFIC RESET, ZONE RESTORED, the takes and moves, ZONE
OUTAGE and the resumption of the sweep; the takes and moves write none of what the others do (`State.Dispatched`) and
come to an end (`State.dispatch_ends`). -/
theorem afterTraffic : Obligations.AfterTraffic := by
  refine ⟨fun s htake hmove hdue hzones hreset hsweep => State.afterTraffic_idle htake hmove hdue hzones hreset hsweep,
    ?_, ?_, ?_, ?_⟩
  · rintro s t rfl hrotation
    obtain ⟨htake, hmove, hdue⟩ := State.afterTraffic_complete hrotation
    rw [← State.takeAllowed_iff_conditions, htake, ← State.moveAllowed_iff_conditions, hmove,
      ← State.outageDue_iff_conditions, hdue, ← State.sweepBlocked_iff]
    refine ⟨Bool.false_ne_true, Bool.false_ne_true, Bool.false_ne_true, ?_,
      fun f hf => State.afterTraffic_reset_undone hf, State.resumeSweep_moving _⟩
    rintro ⟨houtage, hlive⟩
    rcases s.afterTraffic_outage_clear with hclear | hdark
    · rw [houtage] at hclear; cases hclear
    · exact hlive hdark
  · rintro s t rfl
    have h := s.settingsPart_afterTraffic
    simpa only [State.settingsPart, SettingsPart.mk.injEq] using h
  · rintro s t rfl
    obtain ⟨hflush, hprogress, hresponses⟩ := s.afterTraffic_commands
    rw [hflush, hprogress, hresponses]
    refine ⟨fun f g hf hcursor hsending hwaiters hg => ?_, fun h => ?_⟩
    · exact State.completeReset_done hf (State.resetDone_iff.mpr ⟨hcursor, hsending, hwaiters⟩) hg
    · have hundone : ∀ f, s.msu.flush = some f → s.resetDone f = false := fun f hf =>
        Bool.eq_false_iff.mpr fun hdone => by
          obtain ⟨hcursor, hsending, hwaiters⟩ := State.resetDone_iff.mp hdone
          rcases h with hnone | ⟨f', hf', hlacks⟩
          · rw [hf] at hnone; cases hnone
          rw [hf] at hf'; cases hf'
          rcases hlacks with hwalk | hframe | ⟨i, hi | hi⟩
          · omega
          · rw [hsending] at hframe; cases hframe
          · exact (hwaiters i).1 hi
          · exact (hwaiters i).2 hi
      rw [State.completeReset_undone hundone]
      exact ⟨rfl, rfl, rfl⟩
  · rintro s t outage rfl houtage
    refine ⟨fun hdark => ?_, State.afterTraffic_live⟩
    have hdue : s.completeReset.dispatch.outageDue = true ↔ outage := by
      have hdark' := (State.liveZones_settingsPart s.settingsPart_completeReset).trans hdark
      rw [houtage, State.outageDue_dispatch hdark', State.completeReset_flush_none_iff, State.completeReset_dsu,
        State.completeReset_pins]
      simp only [State.resetDone_iff]
    rw [← hdue]
    exact State.afterTraffic_dark hdark

end Sys2Proof.Machine
end


section
namespace Sys2Proof.Machine
open Sys2Proof

/-! ## TICK and MINUTE_ADVANCE -/

section
variable {s : State}

/-! ### A raised notice, as the whole of the Command Link Unit -/

theorem State.raise_clu_stored {k : NoticeKind} (h : s.clu.notices.length < 32) :
    (s.raise k).clu = { s.clu with notices := s.clu.notices ++ [⟨k, s.pdu.tick⟩], attn := true } :=
  congrArg State.clu (if_pos h)

theorem State.raise_clu_full {k : NoticeKind} (h : 32 ≤ s.clu.notices.length) :
    (s.raise k).clu = { s.clu with overflow := true } :=
  congrArg State.clu (if_neg (Nat.not_lt.mpr h))

/-! ### The timers -/

theorem State.countTick_line (s : State) (n : Fin 4) : s.countTick.line n = (s.line n).countTick :=
  Four.get_map Line.countTick s.lines n

theorem State.countTick_receiver (s : State) (l : Link) : s.countTick.receiver l = (s.receiver l).countTick := by
  cases l <;> rfl

theorem State.minuteTick_line (s : State) (n : Fin 4) : s.minuteTick.line n = (s.line n).countTick := by
  rw [State.line, State.minuteTick, State.advanceMinute_lines]
  exact s.countTick_line n

theorem State.minuteTick_receiver (s : State) (l : Link) : s.minuteTick.receiver l = (s.receiver l).countTick :=
  (State.receiver_congr (State.advanceMinute_rla _) (State.advanceMinute_rlb _) l).trans (s.countTick_receiver l)

/-! ### The close (R159) -/

theorem State.startClose_pdu (s : State) (c : Cause) : (s.startClose c).pdu = { s.pdu with
    period := (s.pdu.period + 1) % 65536, cursor := 0, entries := 0
    sweep := if s.pdu.extract.length < 56 ∧ s.pdu.waiters = [] then .sweeping else .stalled } := by
  simp only [State.startClose, State.raise_pdu, ← State.sweepBlocked_iff]
  cases s.sweepBlocked <;> rfl

theorem State.startClose_clu_stored {c : Cause} (h : s.clu.notices.length < 32) : (s.startClose c).clu = { s.clu with
    notices := s.clu.notices ++ [⟨.closeStarted ((s.pdu.period + 1) % 65536) c, s.pdu.tick⟩], attn := true } :=
  State.raise_clu_stored h

theorem State.startClose_clu_full {c : Cause} (h : 32 ≤ s.clu.notices.length) :
    (s.startClose c).clu = { s.clu with overflow := true } := State.raise_clu_full h

/-! ### The minute (R154, R157) -/

/-- The minute counter advances, before it is compared with the close-at minute (R154). -/
def State.nextMinute (s : State) : State :=
  { s with pdu := { s.pdu with tickMinute := 0, minute := (s.pdu.minute + 1) % 16777216 } }

theorem State.advanceMinute_plain (h : s.pdu.auto = false ∨ s.nextMinute.pdu.minute ≠ s.pdu.closeAt) :
    s.advanceMinute = s.nextMinute :=
  if_neg fun ⟨hauto, hat⟩ => h.elim (fun hoff => Bool.false_ne_true (hoff.symm.trans hauto)) (· hat)

theorem State.advanceMinute_closes (hauto : s.pdu.auto = true) (hat : s.nextMinute.pdu.minute = s.pdu.closeAt)
    (hsweep : s.pdu.sweep = .idle) : s.advanceMinute = s.nextMinute.startClose .auto := by
  have hidle : s.nextMinute.sweepInProgress = false := bne_eq_false_iff_eq.mpr hsweep
  exact (if_pos ⟨hauto, hat⟩).trans (if_neg (ne_true_of_eq_false hidle))

theorem State.advanceMinute_misses (hauto : s.pdu.auto = true) (hat : s.nextMinute.pdu.minute = s.pdu.closeAt)
    (hsweep : s.pdu.sweep ≠ .idle) :
    s.advanceMinute = s.nextMinute.raise (.closeMissed s.nextMinute.pdu.minute s.pdu.period) := by
  have hbusy : s.nextMinute.sweepInProgress = true := bne_iff_ne.mpr hsweep
  exact (if_pos ⟨hauto, hat⟩).trans (if_pos hbusy)

/-! ### Which of the two rows the tick event is (R154) -/

theorem State.tickEvent_within (h : s.pdu.tickMinute < 599) : s.tickEvent =
    { s.countTick with pdu := { s.countTick.pdu with tickMinute := s.pdu.tickMinute + 1 } } :=
  if_neg (by rw [Config.minuteTicks]; omega)

theorem State.tickEvent_last (h : s.pdu.tickMinute = 599) : s.tickEvent = s.minuteTick :=
  if_pos (by rw [h]; decide)

theorem exec_tick (s : State) : exec .tick s = .next s.tickEvent := rfl

theorem exec_minuteAdvance_within (h : s.pdu.tickMinute < 599) : exec .minuteAdvance s = .next s :=
  congrArg Host.Outcome.next (if_neg (by rw [Config.minuteTicks]; omega))

theorem exec_minuteAdvance_last (h : s.pdu.tickMinute = 599) : exec .minuteAdvance s = .next s.minuteTick :=
  congrArg Host.Outcome.next (if_pos (by rw [h]; decide))

end

/-- Settles O56: a tick event counts every timer (`State.countTick_line`, `State.countTick_receiver`), and the minute
that the 600th begins goes by, starts a close or misses one (`State.advanceMinute_plain`, `State.advanceMinute_closes`,
`State.advanceMinute_misses`). -/
theorem tickAndMinute : Obligations.TickAndMinute := by
  refine ⟨fun s hcount => ⟨_, exec_tick s, ?_⟩, fun s => exec_minuteAdvance_within, ?_⟩
  · rw [State.tickEvent_within hcount]
    exact ⟨rfl, s.countTick_line, s.countTick_receiver, rfl, rfl, rfl, rfl, rfl, rfl, rfl⟩
  · rintro s _ _ hcount rfl rfl
    refine ⟨?_, _, exec_minuteAdvance_last hcount, s.minuteTick_line, s.minuteTick_receiver,
      State.advanceMinute_pins _, State.advanceMinute_stu _, State.advanceMinute_msu _, State.advanceMinute_chu _,
      State.advanceMinute_dsu _, State.advanceMinute_aru _, ?_⟩
    · rw [exec_tick, State.tickEvent_last hcount, exec_minuteAdvance_last hcount]
    rw [State.minuteTick]
    refine ⟨fun hplain => ?_, fun hauto hat hsweep => ?_, fun hauto hat hsweep => ?_⟩
    · rw [State.advanceMinute_plain (s := s.countTick) hplain]
      exact ⟨rfl, rfl⟩
    · rw [State.advanceMinute_closes (s := s.countTick) hauto hat hsweep]
      exact ⟨State.startClose_pdu .., fun h => State.startClose_clu_stored h,
        fun h => State.startClose_clu_full h⟩
    · rw [State.advanceMinute_misses (s := s.countTick) hauto hat hsweep]
      exact ⟨State.raise_pdu .., fun h => State.raise_clu_stored h, fun h => State.raise_clu_full h⟩

end Sys2Proof.Machine
end


section
namespace Sys2Proof.Machine
open Sys2Proof

/-! ## SET RETURN LINK, ENABLE RETURN LINK and DISABLE RETURN LINK -/

section
variable {s t : State} {tag link : Byte} {a : LinkArgs} {l : Link} {p : Parity} {why : Result} {params : List Byte}

theorem linkOf_eq_none (h : 1 < link.toNat) : linkOf link = none := by
  unfold linkOf
  rw [if_neg, if_neg] <;> rintro rfl <;> simp at h

theorem linkOf_eq_some (h : (link = 0 ∧ l = Link.a) ∨ (link = 1 ∧ l = Link.b)) : linkOf link = some l := by
  rcases h with ⟨rfl, rfl⟩ | ⟨rfl, rfl⟩ <;> rfl

/-! ### SET RETURN LINK (R133) -/

theorem takeSetReturnLink_out_of_range
    (h : 1 < a.link.toNat ∨ 4095 < a.n.toNat ∨ 1 < a.e.toNat ∨ 2 < a.parity.toNat) :
    takeSetReturnLink a s = (s, .now .badField []) := by
  unfold takeSetReturnLink
  split
  next l p hlink hparity =>
    have hl : ¬ 1 < a.link.toNat := fun hlt => by rw [linkOf_eq_none hlt] at hlink; cases hlink
    have hp : ¬ 2 < a.parity.toNat := fun hlt => by rw [parityOf_eq_none hlt] at hparity; cases hparity
    exact if_pos ((h.resolve_left hl).imp_right (Or.resolve_right · hp))
  next => rfl

theorem takeSetReturnLink_active (hlink : linkOf a.link = some l) (hparity : parityOf a.parity = some p)
    (hn : a.n.toNat ≤ 4095) (he : a.e.toNat ≤ 1) (hs : (s.receiver l).state ≠ .disabled) :
    takeSetReturnLink a s = (s, .now .linkActive []) := by
  simp [takeSetReturnLink, hlink, hparity, hn.not_gt, he.not_gt, hs]

theorem takeSetReturnLink_disabled (hlink : linkOf a.link = some l) (hparity : parityOf a.parity = some p)
    (hn : a.n.toNat ≤ 4095) (he : a.e.toNat ≤ 1) (hs : (s.receiver l).state = .disabled) :
    takeSetReturnLink a s =
      (s.putReceiver l { s.receiver l with n := a.n.toNat, e := a.e.toNat, parity := p }, .now .ok []) := by
  simp [takeSetReturnLink, hlink, hparity, hn.not_gt, he.not_gt, hs]

theorem exec_setReturnLink (hfull : s.responseFull = false) (ht : takeSetReturnLink a s = (t, .now why params)) :
    exec (.setReturnLink tag a) s = .next (t.respond ⟨0x60, tag, why, params⟩) :=
  congrArg Host.Outcome.next (State.start_now hfull ht)

/-! ### ENABLE RETURN LINK (R134, R102) -/

theorem takeEnableReturnLink_no_link (h : linkOf link = none) :
    takeEnableReturnLink link s = (s, .now .badField []) := by
  rw [takeEnableReturnLink, h]

theorem takeEnableReturnLink_enabled (hlink : linkOf link = some l) (hs : (s.receiver l).state ≠ .disabled) :
    takeEnableReturnLink link s = (s, .now .ok (nat1 (s.receiver l).state.code)) := by
  simp [takeEnableReturnLink, hlink, hs]

theorem takeEnableReturnLink_line_active (hlink : linkOf link = some .b) (hs : (s.receiver .b).state = .disabled)
    (hline : (s.line 3).state ≠ .disabled) : takeEnableReturnLink link s = (s, .now .lineActive []) := by
  simp [takeEnableReturnLink, hlink, hs, Line.active, hline]

theorem takeEnableReturnLink_disabled (hlink : linkOf link = some l) (hs : (s.receiver l).state = .disabled)
    (hfree : l = .a ∨ (s.line 3).state = .disabled) : takeEnableReturnLink link s =
      (s.putReceiver l { s.receiver l with state := .hunting, dropped := 0, rejected := 0 }, .now .ok [1]) := by
  have hpins : ¬ (l = .b ∧ (s.line 3).active = true) := by
    rintro ⟨rfl, hactive⟩
    rcases hfree with hlink | hline
    · cases hlink
    · simp [Line.active, hline] at hactive
  simp only [takeEnableReturnLink, hlink, hs, ne_eq, not_true_eq_false, if_false, if_neg hpins]
  rfl

theorem exec_enableReturnLink (hfull : s.responseFull = false)
    (ht : takeEnableReturnLink link s = (t, .now why params)) :
    exec (.enableReturnLink tag link) s = .next (t.respond ⟨0x61, tag, why, params⟩) :=
  congrArg Host.Outcome.next (State.start_now (take := fun _ => takeEnableReturnLink link) hfull ht)

/-! ### DISABLE RETURN LINK (R134) -/

theorem takeDisableReturnLink_no_link (h : linkOf link = none) :
    takeDisableReturnLink link s = (s, .now .badField []) := by
  rw [takeDisableReturnLink, h]

theorem takeDisableReturnLink_disabled (hlink : linkOf link = some l) (hs : (s.receiver l).state = .disabled) :
    takeDisableReturnLink link s = (s, .now .ok [0]) := by
  simp only [takeDisableReturnLink, hlink, if_pos hs]
  rfl

/-- The reports of the FIFO are kept, the report in assembly is discarded (R134). -/
theorem takeDisableReturnLink_enabled (hlink : linkOf link = some l) (hs : (s.receiver l).state ≠ .disabled) :
    takeDisableReturnLink link s = (s.putReceiver l { s.receiver l with
      state := .disabled, chars := [], spoiled := false, timer := none }, .now .ok [0]) := by
  simp only [takeDisableReturnLink, hlink, if_neg hs]
  rfl

theorem exec_disableReturnLink (hfull : s.responseFull = false)
    (ht : takeDisableReturnLink link s = (t, .now why params)) :
    exec (.disableReturnLink tag link) s = .next (t.respond ⟨0x62, tag, why, params⟩) :=
  congrArg Host.Outcome.next (State.start_now (take := fun _ => takeDisableReturnLink link) hfull ht)

end

/-- Settles O50: each command by the branches of its `take`, which say what it answers and what it writes. -/
theorem returnLinkCommands : Obligations.ReturnLinkCommands := by
  refine ⟨fun tag a s hfull =>
      ⟨fun hrange => ?_, fun l p hlink hn he hparity => ⟨fun hs => ?_, fun hs => ?_⟩⟩,
    fun tag link s hfull => ⟨fun hrange => ⟨?_, ?_⟩, ?_⟩⟩
  · exact exec_setReturnLink hfull (takeSetReturnLink_out_of_range hrange)
  · exact exec_setReturnLink hfull (takeSetReturnLink_active hlink hparity hn he hs)
  · exact exec_setReturnLink hfull (takeSetReturnLink_disabled hlink hparity hn he hs)
  · exact exec_enableReturnLink hfull (takeEnableReturnLink_no_link (linkOf_eq_none hrange))
  · exact exec_disableReturnLink hfull (takeDisableReturnLink_no_link (linkOf_eq_none hrange))
  · rintro l r hcode rfl
    have hlink := linkOf_eq_some hcode
    refine ⟨fun hs => ⟨?_, ?_⟩, fun hs => ⟨?_, ?_, fun hfree => ?_⟩⟩
    · exact exec_enableReturnLink hfull (takeEnableReturnLink_enabled hlink hs)
    · exact exec_disableReturnLink hfull (takeDisableReturnLink_enabled hlink hs)
    · exact exec_disableReturnLink hfull (takeDisableReturnLink_disabled hlink hs)
    · rintro rfl hline
      exact exec_enableReturnLink hfull (takeEnableReturnLink_line_active hlink hs hline)
    · exact exec_enableReturnLink hfull (takeEnableReturnLink_disabled hlink hs hfree)

end Sys2Proof.Machine
end

section
namespace Sys2Proof.Machine
open Sys2Proof

/-! ## CLOSE PERIOD, READ EXTRACT, PERIOD STATUS and SWEEP_VISIT -/

section
variable {s t : State} {tag count : Byte} {why : Result} {params : List Byte} {r : Record}

/-! ### CLOSE PERIOD (R158, R159) -/

theorem State.startClose_eq (s : State) (c : Cause) : s.startClose c = State.raise
    { s with pdu := { s.pdu with
        period := (s.pdu.period + 1) % 65536, cursor := 0, entries := 0
        sweep := if s.pdu.extract.length < 56 ∧ s.pdu.waiters = [] then .sweeping else .stalled } }
    (.closeStarted ((s.pdu.period + 1) % 65536) c) := by
  simp only [State.startClose, ← State.sweepBlocked_iff]
  cases s.sweepBlocked <;> rfl

theorem takeClosePeriod_busy (h : s.pdu.sweep ≠ .idle) : takeClosePeriod s = (s, .now .sweepBusy []) :=
  if_pos (bne_iff_ne.mpr h)

theorem takeClosePeriod_starts (h : s.pdu.sweep = .idle) : takeClosePeriod s =
    (s.startClose .command, .now .ok (nat2 ((s.pdu.period + 1) % 65536))) := by
  have hidle : s.sweepInProgress = false := bne_eq_false_iff_eq.mpr h
  simp only [takeClosePeriod, hidle, Bool.false_eq_true, if_false, State.startClose_pdu]

theorem exec_closePeriod (hfull : s.responseFull = false) (ht : takeClosePeriod s = (t, .now why params)) :
    exec (.closePeriod tag) s = .next (t.respond ⟨0x73, tag, why, params⟩) :=
  congrArg Host.Outcome.next (State.start_now (take := fun _ => takeClosePeriod) hfull ht)

/-! ### READ EXTRACT (R167) -/

theorem State.resumeSweep_sweep (s : State) : s.resumeSweep = { s with pdu := { s.pdu with
    sweep := if s.pdu.sweep = .stalled ∧ s.pdu.waiters = [] ∧ s.pdu.extract.length < 56 then .sweeping
      else s.pdu.sweep } } := by
  simp only [State.resumeSweep, State.sweepBlocked_iff, and_comm (a := s.pdu.extract.length < 56)]
  split <;> rfl

theorem takeReadExtract_out_of_range (h : count = 0 ∨ 8 < count.toNat) :
    takeReadExtract count s = (s, .now .badField []) := if_pos h

theorem takeReadExtract_removes (hlow : 1 ≤ count.toNat) (hhigh : count.toNat ≤ 8) : takeReadExtract count s =
    ({ s with pdu := { s.pdu with
        extract := s.pdu.extract.drop count.toNat
        sweep := if s.pdu.sweep = .stalled ∧ s.pdu.waiters = [] ∧ s.pdu.extract.length - count.toNat < 56
          then .sweeping else s.pdu.sweep } },
      .now .ok (nat1 (min count.toNat s.pdu.extract.length) ++
        (s.pdu.extract.take count.toNat).flatMap Entry.bytes ++ nat1 (s.pdu.extract.length - count.toNat))) := by
  have hrange : ¬ (count = 0 ∨ 8 < count.toNat) := by
    rintro (rfl | hover)
    · exact absurd hlow (by decide)
    · omega
  simp only [takeReadExtract, if_neg hrange, State.resumeSweep_sweep, List.length_take, List.length_drop]

theorem exec_readExtract (hfull : s.responseFull = false) (ht : takeReadExtract count s = (t, .now why params)) :
    exec (.readExtract tag count) s = .next (t.respond ⟨0x74, tag, why, params⟩) :=
  congrArg Host.Outcome.next (State.start_now (take := fun _ => takeReadExtract count) hfull ht)

/-! ### PERIOD STATUS (R168) -/

theorem exec_periodStatus (hfull : s.responseFull = false) (ht : takePeriodStatus s = (t, .now why params)) :
    exec (.periodStatus tag) s = .next (t.respond ⟨0x75, tag, why, params⟩) :=
  congrArg Host.Outcome.next (State.start_now (take := fun _ => takePeriodStatus) hfull ht)

/-! ### SWEEP_VISIT (R161) -/

theorem exec_sweepVisit_idle (h : s.pdu.sweep ≠ .sweeping) : exec .sweepVisit s = .next s :=
  congrArg Host.Outcome.next (if_neg h)

theorem exec_sweepVisit_stalls (hsweep : s.pdu.sweep = .sweeping)
    (hblocked : 56 ≤ s.pdu.extract.length ∨ s.pdu.waiters ≠ []) :
    exec .sweepVisit s = .next { s with pdu := { s.pdu with sweep := .stalled } } := by
  have hblocked' : s.sweepBlocked = true := by
    rw [← Bool.not_eq_false, State.sweepBlocked_iff, not_and_or, not_lt]
    exact hblocked
  exact congrArg Host.Outcome.next ((if_pos hsweep).trans (if_pos hblocked'))

theorem exec_sweepVisit_visits (hsweep : s.pdu.sweep = .sweeping) (hroom : s.pdu.extract.length < 56)
    (hwaiters : s.pdu.waiters = []) : exec .sweepVisit s = .next s.visit := by
  have hfree : s.sweepBlocked = false := State.sweepBlocked_iff.mpr ⟨hroom, hwaiters⟩
  exact congrArg Host.Outcome.next ((if_pos hsweep).trans (if_neg (ne_true_of_eq_false hfree)))

theorem State.visit_ends (h : s.stu.capacity ≤ s.pdu.cursor) : s.visit =
    State.raise { s with pdu := { s.pdu with sweep := .idle } } (.periodClosed s.pdu.period s.pdu.entries) := if_pos h

theorem State.ready_iff : s.ready = true ↔ s.stu.state = .ready := beq_iff_eq

theorem State.visit_passes (hcursor : s.pdu.cursor < s.stu.capacity)
    (hpass : s.stu.state ≠ .ready ∨ s.record? s.pdu.cursor = none ∨
      ∃ r, s.record? s.pdu.cursor = some r ∧ r.periodTag = s.pdu.period) : s.visit = s.advanceSweep := by
  rw [State.visit, if_neg hcursor.not_ge]
  rcases hpass with hstate | hnone | ⟨r, hr, htag⟩
  · exact if_pos (Bool.not_eq_true _ ▸ State.ready_iff.not.mpr hstate)
  · rw [hnone, ite_self]
  · simp only [hr, if_pos htag, ite_self]

theorem State.visit_closes (hcursor : s.pdu.cursor < s.stu.capacity) (hready : s.stu.state = .ready)
    (hr : s.record? s.pdu.cursor = some r) (htag : r.periodTag ≠ s.pdu.period) :
    s.visit = (s.closeRecord s.pdu.cursor r).advanceSweep := by
  simp only [State.visit, if_neg hcursor.not_ge, State.ready_iff.mpr hready, Bool.true_eq_false, if_false, hr,
    if_neg htag]

/-- A record closed while the extract FIFO has a place: its entry at the tail, and its counters reset (R160). -/
theorem State.closeRecord_eq {i : Nat} (hroom : s.pdu.extract.length < 64) : s.closeRecord i r =
    { s with
      stu := { s.stu with records := s.stu.records.put i (r.closePeriod s.pdu.period) }
      pdu := { s.pdu with entries := s.pdu.entries + 1, extract := s.pdu.extract ++ [r.entry i false] } } := by
  have hwrite : s.writeEntry (r.entry i false) =
      { s with pdu := { s.pdu with extract := s.pdu.extract ++ [r.entry i false] } } := if_pos hroom
  rw [State.closeRecord, hwrite]
  rfl

end

/-! ### The bytes of an entry (R192) -/

theorem nat1_entryFlags (saturated closing : Bool) : nat1 ((if saturated then 1 else 0) + (if closing then 2 else 0)) =
    [(if saturated then 1#8 else 0#8) ||| (if closing then 2#8 else 0#8)] := by
  revert saturated closing; decide

theorem Entry.bytes_length (e : Entry) : e.bytes.length = 28 := rfl

/-- Settles O57: each command by what its `take` answers, SWEEP_VISIT by the branches of `State.visit`, and a closed
record by `State.closeRecord_eq`. -/
theorem closeSweepAndExtract : Obligations.CloseSweepAndExtract := by
  refine ⟨fun tag s hfull => ⟨fun hbusy => ?_, fun hidle => ?_, fun count hrange => ?_, fun count hlow hhigh => ?_, ?_⟩,
    fun s => ⟨exec_sweepVisit_idle, exec_sweepVisit_stalls, fun hsweep hroom hwaiters => ?_⟩,
    fun e => ⟨e.bytes_length, ?_⟩⟩
  · exact exec_closePeriod hfull (takeClosePeriod_busy hbusy)
  · rw [← State.startClose_eq]
    exact exec_closePeriod hfull (takeClosePeriod_starts hidle)
  · exact exec_readExtract hfull (takeReadExtract_out_of_range hrange)
  · exact exec_readExtract hfull (takeReadExtract_removes hlow hhigh)
  · refine (exec_periodStatus hfull rfl).trans ?_
    cases s.pdu.waiters <;> rfl
  · rw [exec_sweepVisit_visits hsweep hroom hwaiters]
    refine ⟨fun hend => congrArg _ (State.visit_ends hend), fun hcursor =>
      ⟨fun hpass => congrArg _ (State.visit_passes hcursor hpass), fun r hready hr htag => ?_⟩⟩
    rw [State.visit_closes hcursor hready hr htag, State.closeRecord_eq (by omega)]
    rfl
  · rw [Entry.bytes, nat1_entryFlags]
    cases e.plan <;> rfl

end Sys2Proof.Machine
end


section
namespace Sys2Proof.Machine
open Sys2Proof

/-! ## EXTRACT_WAITER_TURN -/

section
variable {s : State} {w : Waiter} {rest : List Waiter} {i : Nat} {r : Record} {holder : Holder}

/-! ### The row (R164) -/

theorem exec_extractWaiterTurn_idle (h : s.pdu.waiters = [] ∨ 64 ≤ s.pdu.extract.length) :
    exec .extractWaiterTurn s = .next s := by
  refine congrArg Host.Outcome.next ?_
  unfold State.waiterTurn
  split
  next => rfl
  next w rest hw =>
    have hfull : 64 ≤ s.pdu.extract.length := h.resolve_left (by simp [hw])
    exact if_neg hfull.not_gt

/-- The state with the waiter that has its turn off the list (R164). -/
def State.offList (s : State) (rest : List Waiter) : State := { s with pdu := { s.pdu with waiters := rest } }

theorem exec_extractWaiterTurn_head (hw : s.pdu.waiters = w :: rest) (hroom : s.pdu.extract.length < 64) :
    exec .extractWaiterTurn s = .next ((s.offList rest).takeAnew w).afterTraffic := by
  refine congrArg Host.Outcome.next ?_
  rw [State.waiterTurn, hw]
  exact if_pos hroom

/-- A waiter that goes on waiting is back at the head of the list it was taken off. -/
theorem State.wait_offList (hw : s.pdu.waiters = w :: rest) : (s.offList rest).wait true w = s := by
  change { s with pdu := { s.pdu with waiters := w :: rest } } = s
  rw [← hw]

theorem State.expire_undue {anew : Bool} (h : s.dueHead = none) : s.expire anew = s := by rw [State.expire, h]

/-! ### The entries that the turn of a closing entry writes (R24, R160, R166) -/

theorem State.needsTouch_eq (s : State) (r : Record) :
    s.needsTouch r = (s.pdu.sweep ≠ .idle && r.periodTag ≠ s.pdu.period) := by
  simp [State.needsTouch, State.sweepInProgress, bne, beq_eq_decide]

/-- The state with the entries of a record written: the records and the Period Unit as given. -/
def State.entered (s : State) (records : Sparse Record) (pdu : Pdu) : State :=
  { s with stu := { s.stu with records }, pdu }

/-- The event that the turn of a closing entry holds, from the state in which its entries are written (R24, R166). -/
def State.endFreeing (s : State) (i : Nat) (r : Record) (holder : Holder) : State :=
  ((s.releaseRecord i r).countFreed holder).endHolder holder

/-- The Period Unit with the one closing entry of a record that carries the current tag. -/
def Pdu.enterClosing (p : Pdu) (i : Nat) (r : Record) : Pdu := { p with extract := p.extract ++ [r.entry i true] }

/-- The Period Unit with the old period's entry of a record, and its closing entry behind. -/
def Pdu.enterBoth (p : Pdu) (i : Nat) (r : Record) : Pdu :=
  { p with
    entries := p.entries + 1
    extract := p.extract ++ [r.entry i false, (r.closePeriod p.period).entry i true] }

theorem State.takeAnew_closing_one (hr : s.record? i = some r) (hneeds : s.needsTouch r = false)
    (hroom : s.pdu.extract.length < 64) : s.takeAnew (.closing i holder) =
      (s.entered s.stu.records (s.pdu.enterClosing i r)).endFreeing i r holder := by
  have hroom' : s.hasRoom true 1 = true := (s.hasRoom_anew 1).mpr hroom
  have hwrite : s.writeEntry (r.entry i true) = s.entered s.stu.records (s.pdu.enterClosing i r) := if_pos hroom
  simp only [State.takeAnew, State.writeClosing, hr, hneeds, hroom', hwrite, if_true, Bool.false_eq_true, if_false]
  rfl

theorem State.takeAnew_closing_two (hr : s.record? i = some r) (hneeds : s.needsTouch r = true)
    (hroom : s.pdu.extract.length < 63) : s.takeAnew (.closing i holder) =
      (s.entered (s.stu.records.put i (r.closePeriod s.pdu.period)) (s.pdu.enterBoth i r)).endFreeing i
        (r.closePeriod s.pdu.period) holder := by
  have hroom' : s.hasRoom true 2 = true := (s.hasRoom_anew 2).mpr (by omega)
  have hwrite : (s.closeRecord i r).writeEntry ((r.closePeriod s.pdu.period).entry i true) =
      s.entered (s.stu.records.put i (r.closePeriod s.pdu.period)) (s.pdu.enterBoth i r) := by
    rw [State.closeRecord_eq (by omega), State.writeEntry, if_pos (by simp [Config.extractFifo]; omega)]
    simp [State.entered, Pdu.enterBoth]
  simp only [State.takeAnew, State.writeClosing, hr, hneeds, hroom', if_true, State.record?_closeRecord, hwrite]
  rfl

theorem State.takeAnew_closing_waits (hr : s.record? i = some r) (hneeds : s.needsTouch r = true)
    (hroom : s.pdu.extract.length = 63) : s.takeAnew (.closing i holder) = s.wait true (.closing i holder) := by
  have hroom' : s.hasRoom true 2 = false := by
    rw [← Bool.not_eq_true, State.hasRoom_anew]
    omega
  simp only [State.takeAnew, State.writeClosing, hr, hneeds, hroom', if_true, Bool.false_eq_true, if_false]

/-! ### The freeing of the record, and the end of the event held (R24, R166) -/

theorem State.releaseRecord_inProgress (s : State) (i : Nat) (r : Record) :
    (s.releaseRecord i r).clu.inProgress = s.clu.inProgress := State.raise_inProgress ..

theorem State.releaseRecord_responses (s : State) (i : Nat) (r : Record) :
    (s.releaseRecord i r).clu.responses = s.clu.responses := State.raise_responses ..

theorem State.releaseRecord_notices (h : s.clu.notices.length < 32) : (s.releaseRecord i r).clu.notices =
    s.clu.notices ++ [⟨.recordFreed i r.number, s.pdu.tick⟩] := State.raise_notices h

theorem State.releaseRecord_stu (s : State) (i : Nat) (r : Record) : (s.releaseRecord i r).stu = { s.stu with
    addressIndex := putChain s.stu.addressIndex (s.stu.addressBucket r.address)
      ((chainAt s.stu.addressIndex (s.stu.addressBucket r.address)).erase i)
    records := s.stu.records.drop i, free := s.stu.free.push i, freeCount := s.stu.freeCount + 1 } :=
  State.raise_stu ..

theorem State.complete_notices (s : State) (place : Nat) (result : Result) (params : List Byte) :
    (s.complete place result params).clu.notices = s.clu.notices := by
  unfold State.complete
  split <;> rfl

theorem State.complete_found {place : Nat} {g : Progress} (result : Result) (params : List Byte)
    (hg : s.clu.inProgress.find? (fun g => g.place == place) = some g) : s.complete place result params =
      State.respond { s with clu := { s.clu with inProgress := s.clu.inProgress.erase g } }
        { code := g.code, tag := g.tag, result, params } := by
  rw [State.complete, hg]

/-- The fifo of a link after the removal of the head report of one of them (R135). -/
theorem State.fifo_popReport (s : State) (l l' : Link) :
    ((s.popReport l).receiver l').fifo = if l = l' then (s.receiver l').fifo.tail else (s.receiver l').fifo := by
  cases l <;> cases l' <;> rfl

@[simp] theorem State.endHolder_stu (s : State) (h : Holder) : (s.endHolder h).stu = s.stu := by
  cases h <;> simp [State.endHolder]

@[simp] theorem State.endHolder_pdu (s : State) (h : Holder) : (s.endHolder h).pdu = s.pdu := by
  cases h <;> simp [State.endHolder]

theorem State.endHolder_notices (s : State) (h : Holder) : (s.endHolder h).clu.notices = s.clu.notices := by
  cases h <;> simp [State.endHolder, State.complete_notices]

/-- Only a RETIRE or a CANCEL that the closing entry holds is answered (R166). -/
theorem State.endHolder_unanswered (s : State) (h : ∀ place params, holder ≠ .answer place params) :
    (s.endHolder holder).clu = s.clu := by
  cases holder with
  | answer place params => exact absurd rfl (h place params)
  | report l => exact State.popReport_clu ..
  | alone | expiry | walk => rfl

/-- Only the head report that the closing entry holds leaves its FIFO (R135, R166). -/
theorem State.endHolder_fifo (s : State) (l : Link) : ((s.endHolder holder).receiver l).fifo =
    if holder = .report l then (s.receiver l).fifo.tail else (s.receiver l).fifo := by
  cases holder with
  | report l' => simp only [State.endHolder, State.fifo_popReport, Holder.report.injEq]
  | answer place params =>
    exact congrArg Receiver.fifo (State.receiver_congr (State.complete_rla ..) (State.complete_rlb ..) l)
  | alone | expiry | walk => rfl

/-- What a TRAFFIC RESET in progress notes of a closing entry written at its turn: the record counted where the walk or
a flush of the reset began that entry, and the walk going on where the entry held it (R49, R51, R166). -/
def Holder.noteFlush (h : Holder) (flush : Option TrafficReset) : Option TrafficReset :=
  match h with
  | .walk => flush.map fun f => { f with cursor := f.cursor + 1, freed := f.freed + 1 }
  | .alone true => flush.map fun f => { f with freed := f.freed + 1 }
  | _ => flush

theorem State.endHolder_countFreed_msu (s : State) (h : Holder) :
    ((s.countFreed h).endHolder h).msu = { s.msu with flush := h.noteFlush s.msu.flush } := by
  cases h with
  | alone byReset => cases byReset <;> rfl
  | answer place params => exact State.complete_msu ..
  | report l => exact State.popReport_msu ..
  | expiry => rfl
  | walk => exact congrArg (fun flush => { s.msu with flush := flush }) (Option.map_map ..)

/-- `u` is `s` after the turn of the closing entry of the record `r`, with the Period Unit that its entries leave. -/
structure State.FreedAtTurn (s u : State) (i : Nat) (r : Record) (holder : Holder) (pdu : Pdu) : Prop where
  gone : u.record? i = none
  others : ∀ j, j ≠ i → u.record? j = s.record? j
  addresses : ∀ b, chainAt u.stu.addressIndex b = if b = s.stu.addressBucket r.address
    then (chainAt s.stu.addressIndex b).erase i else chainAt s.stu.addressIndex b
  free : u.stu.free.toList = i :: s.stu.free.toList
  freeCount : u.stu.freeCount = s.stu.freeCount + 1
  pdu : u.pdu = pdu
  notices : s.clu.notices.length < 32 → u.clu.notices = s.clu.notices ++ [⟨.recordFreed i r.number, s.pdu.tick⟩]
  answered : ∀ place params g, holder = .answer place params →
    s.clu.inProgress.find? (fun g => g.place == place) = some g →
    u.clu.responses = s.clu.responses ++ [⟨g.code, g.tag, .ok, params⟩] ∧ u.clu.inProgress = s.clu.inProgress.erase g
  unanswered : (∀ place params, holder ≠ .answer place params) →
    u.clu.responses = s.clu.responses ∧ u.clu.inProgress = s.clu.inProgress
  reports : ∀ l, (u.receiver l).fifo =
    if holder = .report l then (s.receiver l).fifo.tail else (s.receiver l).fifo
  msu : u.msu = { s.msu with flush := holder.noteFlush s.msu.flush }

/-- The record is freed and the event held ends, whichever entries were written: they reach no other record, and leave
the number and the address. -/
theorem State.endFreeing_freedAtTurn {records : Sparse Record} {pdu : Pdu} {r' : Record}
    (hothers : ∀ j, j ≠ i → records.look j = s.record? j) (htick : pdu.tick = s.pdu.tick)
    (hnumber : r'.number = r.number) (haddress : r'.address = r.address) :
    s.FreedAtTurn ((s.entered records pdu).endFreeing i r' holder) i r holder pdu := by
  have hstu : ((s.entered records pdu).endFreeing i r' holder).stu =
      ((s.entered records pdu).releaseRecord i r').stu := by
    rw [State.endFreeing, State.endHolder_stu, State.countFreed_stu]
  constructor
  case gone => exact (State.record?_congr (congrArg Stu.records hstu) i).trans (State.record?_releaseRecord_same ..)
  case others =>
    intro j hj
    exact ((State.record?_congr (congrArg Stu.records hstu) j).trans (State.record?_releaseRecord_other _ _ hj)).trans
      (hothers j hj)
  case addresses =>
    have hchains : chainAt ((s.entered records pdu).endFreeing i r' holder).stu.addressIndex =
        Function.update (chainAt s.stu.addressIndex) (s.stu.addressBucket r.address)
          ((chainAt s.stu.addressIndex (s.stu.addressBucket r.address)).erase i) := by
      rw [hstu, State.releaseRecord_stu, haddress]
      exact chainAt_putChain_fun ..
    intro b
    rw [hchains, Function.update_apply]
    exact ite_congr rfl (fun hb => by rw [hb]) fun _ => rfl
  case free => rw [hstu, State.releaseRecord_stu]; rfl
  case freeCount => rw [hstu, State.releaseRecord_stu]; rfl
  case pdu => rw [State.endFreeing, State.endHolder_pdu, State.countFreed_pdu, State.releaseRecord_pdu]; rfl
  case notices =>
    intro h
    rw [State.endFreeing, State.endHolder_notices, State.countFreed_clu, ← hnumber, ← htick]
    exact State.releaseRecord_notices h
  case answered =>
    rintro place params g rfl hg
    have hend : (s.entered records pdu).endFreeing i r' (.answer place params) =
        ((s.entered records pdu).releaseRecord i r').complete place .ok params := rfl
    have hprogress : ((s.entered records pdu).releaseRecord i r').clu.inProgress = s.clu.inProgress :=
      State.releaseRecord_inProgress ..
    rw [hend, State.complete_found _ _ (hprogress.symm ▸ hg)]
    exact ⟨congrArg (· ++ _) (State.releaseRecord_responses ..), congrArg (·.erase g) hprogress⟩
  case unanswered =>
    intro h
    rw [State.endFreeing, State.endHolder_unanswered _ h, State.countFreed_clu]
    exact ⟨State.releaseRecord_responses .., State.releaseRecord_inProgress ..⟩
  case reports =>
    intro l
    have hlink : (((s.entered records pdu).releaseRecord i r').countFreed holder).receiver l = s.receiver l :=
      State.receiver_congr (by rw [State.countFreed_rla, State.releaseRecord_rla]; rfl)
        (by rw [State.countFreed_rlb, State.releaseRecord_rlb]; rfl) l
    rw [State.endFreeing, State.endHolder_fifo, hlink]
  case msu =>
    rw [State.endFreeing, State.endHolder_countFreed_msu, State.releaseRecord_msu]; rfl

/-- A closing entry whose turn finds room for what it has to write frees its record. -/
theorem State.takeAnew_closing_frees (hr : s.record? i = some r) (hroom : s.pdu.extract.length < 64)
    (hboth : s.needsTouch r = false ∨ s.pdu.extract.length < 63) :
    s.FreedAtTurn (s.takeAnew (.closing i holder)) i r holder
      (if s.needsTouch r then s.pdu.enterBoth i r else s.pdu.enterClosing i r) := by
  cases hneeds : s.needsTouch r with
  | false =>
    rw [State.takeAnew_closing_one hr hneeds hroom]
    exact State.endFreeing_freedAtTurn (fun j _ => rfl) rfl rfl rfl
  | true =>
    rw [State.takeAnew_closing_two hr hneeds (hboth.resolve_left (ne_false_of_eq_true hneeds))]
    exact State.endFreeing_freedAtTurn (fun j hj => State.record?_putRecord_other s _ hj) rfl rfl rfl

end

/-- Settles O58: a waiter that is no closing entry by what `State.takeAnew` does with it; a closing entry by
`State.takeAnew_closing_frees`, where what it has to write finds room, and else by `State.takeAnew_closing_waits`. -/
theorem waiterTurnTakesHead : Obligations.WaiterTurnTakesHead := by
  refine ⟨fun s => exec_extractWaiterTurn_idle, ?_⟩
  intro s s' w rest hw hroom hs'
  obtain rfl : s' = s.offList rest := hs'
  rw [exec_extractWaiterTurn_head hw hroom]
  refine ⟨?line, ?commandAnswers, ?commandStays, ?takeBarred, ?takeMade, ?completion, ?report, ?expiryUndue, ?expiryDue,
    ?walk, ?closing⟩
  case line | report => rintro _ rfl; rfl
  case completion | walk => rintro rfl; rfl
  case commandAnswers =>
    rintro place c t result params rfl ht
    rw [State.takeAnew, ht, State.settleReply]
  case commandStays =>
    rintro place c t rfl ht
    rw [State.takeAnew, ht, State.settleReply]
  case takeBarred =>
    rintro rfl hbarred
    rw [State.takeAnew, hbarred, if_neg Bool.false_ne_true]
  case takeMade =>
    rintro rfl hallowed
    rw [State.takeAnew, hallowed, if_pos rfl]
  case expiryUndue =>
    rintro rfl hundue
    rw [State.takeAnew, State.expire_undue hundue]
  case expiryDue => rintro rfl -; rfl
  case closing =>
    rintro i holder r _ rfl hr rfl
    rw [← s.needsTouch_eq r]
    refine ⟨fun hold hlen => ?_, fun hcase => ?_⟩
    · rw [State.takeAnew_closing_waits (s := s.offList rest) hr hold hlen, State.wait_offList hw]
    · have h := State.takeAnew_closing_frees (s := s.offList rest) (holder := holder) hr hroom hcase
      refine ⟨_, rfl, h.gone, h.others, h.addresses, h.free, h.freeCount, ?_, h.notices, fun hold => ?_, fun hold => ?_,
        h.answered, h.unanswered, h.reports, h.msu⟩
      · rw [h.pdu]
        split <;> rfl
      · rw [h.pdu.trans (if_pos hold)]
        exact ⟨rfl, rfl⟩
      · rw [h.pdu.trans (if_neg (ne_true_of_eq_false hold))]
        exact ⟨rfl, rfl⟩

end Sys2Proof.Machine
end


section
namespace Sys2Proof.Machine
open Sys2Proof

/-! ## EXCHANGE_END -/

section
variable {s : State} {x : Exchange} {r : Response} {f : CommandFrame} {i : Instr} {mosi bytes more : List Byte}
  {length code tag : Byte}

/-! ### Starts from the command queue (R175) -/

theorem State.startWaiting_full (h : s.responseFull = true) : s.startWaiting = s := by
  rw [State.startWaiting]
  cases s.clu.queue.length with
  | zero => rfl
  | succ k => rw [startQueued, h, Bool.or_true, if_pos rfl]

theorem State.startWaiting_nil (h : s.clu.queue = []) : s.startWaiting = s := by
  rw [State.startWaiting, h]
  rfl

theorem State.startWaiting_singleton (hq : s.clu.queue = [f]) (hfull : s.responseFull = false) :
    s.startWaiting = State.startFrame { s with clu := { s.clu with queue := [] } } f := by
  simp [State.startWaiting, startQueued, State.startHead, hq, hfull]

/-- A frame that passes both checks of R175 is its command, started by the owning block. -/
theorem State.startFrame_command (hparse : parseCommand f.code f.tag f.params = .command i) (hshort : f.short = false) :
    s.startFrame f = startHost i s := by
  rw [State.startFrame, hparse]
  exact if_neg (ne_true_of_eq_false hshort)

/-! ### A frame offered to the queue (R174) -/

theorem State.offerFrame_joins (h : s.clu.queue.length < 4) :
    s.offerFrame f = State.startWaiting { s with clu := { s.clu with queue := s.clu.queue ++ [f] } } := if_pos h

theorem State.offerFrame_drops (h : 4 ≤ s.clu.queue.length) : s.offerFrame f = s.dropFrame := if_neg h.not_gt

/-- A command that comes while nothing is queued and the response FIFO is not full starts in the event (R175). -/
theorem State.offerFrame_starts (hq : s.clu.queue = []) (hfull : s.responseFull = false)
    (hparse : parseCommand f.code f.tag f.params = .command i) (hshort : f.short = false) :
    s.offerFrame f = startHost i s := by
  have hjoined : ({ s with clu := { s.clu with queue := s.clu.queue ++ [f] } } : State).clu.queue = [f] :=
    congrArg (· ++ [f]) hq
  have hleft : { s with clu := { s.clu with queue := [] } } = s := by rw [← hq]
  rw [State.offerFrame_joins (by simp [hq]), State.startWaiting_singleton hjoined hfull,
    State.startFrame_command hparse hshort, hleft]

/-! ### What the CLU makes of the bytes on MOSI (R173) -/

theorem State.receiveFrame_none (h : mosi.head? = some 0) : s.receiveFrame mosi = s := by
  obtain ⟨rest, rfl⟩ := List.head?_eq_some_iff.mp h
  rfl

/-- An exchange of no whole byte, a length that counts no tag, and a frame cut short before its tag. -/
theorem State.receiveFrame_drops (h : mosi = [] ∨ (∃ rest, mosi = 1 :: rest) ∨
    (mosi.length ≤ 2 ∧ ∃ length rest, mosi = length :: rest ∧ length ≠ 0)) : s.receiveFrame mosi = s.dropFrame := by
  obtain rfl | ⟨rest, rfl⟩ | ⟨hshort, length, rest, rfl, hzero⟩ := h
  · rfl
  · rfl
  · match rest with
    | [] | [_] => exact (if_neg hzero).trans (ite_self _)
    | _ :: _ :: _ => simp at hshort

/-- The frame that joins the queue, once its code and tag have come: marked short when parameter bytes that its length
counts are missing. -/
def receivedFrame (length code tag : Byte) (bytes : List Byte) : CommandFrame :=
  ⟨code, tag, bytes.take (length.toNat - 2), decide (bytes.length < length.toNat - 2)⟩

theorem State.receiveFrame_offers (h : 2 ≤ length.toNat) :
    s.receiveFrame (length :: code :: tag :: bytes) = s.offerFrame (receivedFrame length code tag bytes) := by
  have hzero : length ≠ 0 := by rintro rfl; simp at h
  have hone : length ≠ 1 := by rintro rfl; simp at h
  rw [State.receiveFrame, if_neg hzero, if_neg hone]
  rfl

/-! ### The frame of a well-formed host command (R188) -/

open Laws.FrameRoundTrip in
/-- The bytes that any command writes are read back: one lemma of `Laws.FrameRoundTrip` for each constructor. -/
theorem frameRoundTrip (i : Instr) : Statement i := by
  cases i with
  | format => exact format _ _
  | add => exact add _ _
  | alter => exact alter _ _
  | suspend => exact suspend _ _
  | resume => exact resume _ _
  | retire => exact retire _ _ _
  | findNumber => exact findNumber _ _
  | findAddress => exact findAddress _ _
  | readRecord => exact readRecord _ _
  | cancel => exact cancel _ _
  | readMessage => exact readMessage _ _
  | trafficReset => exact trafficReset _
  | setTariff => exact setTariff _ _
  | readTariff => exact readTariff _
  | adjustBalance => exact adjustBalance _ _ _
  | setLine => exact setLine _ _
  | enableLine => exact enableLine _ _
  | disableLine => exact disableLine _ _
  | lineStatus => exact lineStatus _ _
  | submit => exact submit _ _
  | setZones => exact setZones _ _
  | setOverride => exact setOverride _ _ _
  | zoneStatus => exact zoneStatus _
  | setTransmitter => exact setTransmitter _ _
  | holdDispatch => exact holdDispatch _ _
  | setArbiter => exact setArbiter _ _
  | dispatchStatus => exact dispatchStatus _
  | setReturnLink => exact setReturnLink _ _
  | enableReturnLink => exact enableReturnLink _ _
  | disableReturnLink => exact disableReturnLink _ _
  | setRetry => exact setRetry _ _ _ _
  | returnStatus => exact returnStatus _
  | setTimebase => exact setTimebase _ _ _
  | setClock => exact setClock _ _
  | setClose => exact setClose _ _ _
  | closePeriod => exact closePeriod _
  | readExtract => exact readExtract _ _
  | periodStatus => exact periodStatus _
  | status => exact status _
  | readNotices => exact readNotices _ _
  | _ => exact of_event rfl

theorem Instr.lengthByte_toNat (hw : i.wellFormed = true) :
    (BitVec.ofNat 8 (2 + i.parameters.length)).toNat = 2 + i.parameters.length := by
  have hfits : 2 + i.parameters.length ≤ 255 := of_decide_eq_true (Bool.and_eq_true_iff.mp hw).1
  rw [BitVec.toNat_ofNat, Nat.mod_eq_of_lt (by omega)]

/-- The parameters come back whole, whatever the host clocks after the frame. -/
theorem receivedFrame_commandFrame (hw : i.wellFormed = true) :
    receivedFrame (BitVec.ofNat 8 (2 + i.parameters.length)) code tag (i.parameters ++ more) =
      ⟨code, tag, i.parameters, false⟩ := by
  rw [receivedFrame, Instr.lengthByte_toNat hw, Nat.add_sub_cancel_left, List.take_left, decide_eq_false (by simp)]

/-- The frame of a well-formed host command starts that command, where nothing is queued and the response FIFO has a
place. -/
theorem State.receiveFrame_commandFrame (hw : i.wellFormed = true) (hi : i.commandCode.isSome = true)
    (hq : s.clu.queue = []) (hfull : s.responseFull = false) :
    s.receiveFrame (i.commandFrame ++ more) = startHost i s := by
  obtain ⟨code, hcode⟩ := Option.isSome_iff_exists.mp hi
  have hframe : i.commandFrame ++ more =
      BitVec.ofNat 8 (2 + i.parameters.length) :: code :: i.hostTag :: (i.parameters ++ more) := by
    rw [Instr.commandFrame, hcode]
    rfl
  have hlength : 2 ≤ (BitVec.ofNat 8 (2 + i.parameters.length)).toNat :=
    (Nat.le_add_right _ _).trans_eq (Instr.lengthByte_toNat hw).symm
  rw [hframe, State.receiveFrame_offers hlength, receivedFrame_commandFrame hw]
  exact State.offerFrame_starts hq hfull (frameRoundTrip i hw code hcode) rfl

/-! ### The response of the exchange (R178) -/

/-- The state once CSn has risen, before the CLU looks at what was shifted. -/
def State.offExchange (s : State) : State := { s with clu := { s.clu with exchange := none } }

/-- The state once the response shifted out whole has left the FIFO, with ATTN at its level (R178, R179). -/
def State.offResponse (s : State) : State := { s with clu := { s.clu with
  exchange := none, responses := s.clu.responses.tail,
  attn := !s.clu.responses.tail.isEmpty || !s.clu.notices.isEmpty } }

theorem Exchange.miso_length (hr : x.response = some r) : x.miso.length = 6 + r.params.length := by
  simp only [Exchange.miso, hr, Response.bytes, nat2, bytes2, List.length_cons, List.length_append, List.length_nil]
  omega

theorem State.endExchange_unanswered (hr : x.response = none) :
    s.endExchange x mosi = s.offExchange.receiveFrame mosi := by
  rw [State.endExchange, if_neg (by simp [hr])]
  rfl

theorem State.endExchange_cut (hr : x.response = some r) (hlen : mosi.length < 6 + r.params.length) :
    s.endExchange x mosi = s.offExchange.receiveFrame mosi := by
  rw [State.endExchange, if_neg (by rw [Exchange.miso_length hr]; omega)]
  rfl

theorem State.endExchange_removes (hr : x.response = some r) (hlen : 6 + r.params.length ≤ mosi.length) :
    s.endExchange x mosi = s.offResponse.startWaiting.receiveFrame mosi := by
  rw [State.endExchange, if_pos (by rw [Exchange.miso_length hr, hr]; exact ⟨rfl, hlen⟩)]
  rfl

/-- A response that leaves the FIFO leaves a place free (R175). -/
theorem State.offResponse_not_full (hresponses : s.clu.responses ≠ [])
    (hbound : s.clu.responses.length + s.clu.inProgress.length ≤ 8) : s.offResponse.responseFull = false := by
  have hpos := List.length_pos_of_ne_nil hresponses
  simp only [State.responseFull, State.offResponse, List.length_tail, Config.responseFifo, decide_eq_false_iff_not]
  omega

/-! ### The row EXCHANGE_END -/

theorem exec_exchangeEnd (hx : s.clu.exchange = some x) : exec (.exchangeEnd mosi) s = .next (s.endExchange x mosi) := by
  change execExchangeEnd mosi s = _
  rw [execExchangeEnd, hx]

theorem exec_exchangeEnd_unanswered (hx : s.clu.exchange = some x) (hr : x.response = none) :
    exec (.exchangeEnd mosi) s = .next (s.offExchange.receiveFrame mosi) := by
  rw [exec_exchangeEnd hx, State.endExchange_unanswered hr]

end

/-- Settles O16: each form by what becomes of the exchange's response (`State.endExchange_unanswered`,
`State.endExchange_cut`, `State.endExchange_removes`), and then of the bytes on MOSI (`State.receiveFrame_none`,
`State.receiveFrame_drops`, `State.receiveFrame_offers`). -/
theorem exchangeEndOutcomes : Obligations.ExchangeEndOutcomes := by
  refine ⟨fun s x r mosi hx hr hzero => ⟨fun hwhole => ?_, fun hcut => ?_⟩,
    ⟨fun s x length code tag bytes hx hr hlength hfull => ⟨fun hroom => ?_, fun hfour => ?_⟩,
      fun s x mosi hx hr hdrop => ?_⟩,
    fun s x bytes hx hr => ?_, ?general, ?starts⟩
  · rw [exec_exchangeEnd hx, State.endExchange_removes hr hwhole, State.receiveFrame_none hzero]
    rfl
  · rw [exec_exchangeEnd hx, State.endExchange_cut hr hcut, State.receiveFrame_none hzero]
    rfl
  · rw [exec_exchangeEnd_unanswered hx hr, State.receiveFrame_offers hlength,
      State.offerFrame_joins (s := s.offExchange) hroom]
    exact congrArg _ (State.startWaiting_full hfull)
  · rw [exec_exchangeEnd_unanswered hx hr, State.receiveFrame_offers hlength,
      State.offerFrame_drops (s := s.offExchange) hfour]
    rfl
  · rw [exec_exchangeEnd_unanswered hx hr, State.receiveFrame_drops hdrop]
    rfl
  · exact exec_exchangeEnd_unanswered hx hr
  case general =>
    rintro s removed x length code tag bytes mosi hx hlength rfl hremoved
    have hend : exec (.exchangeEnd (length :: code :: tag :: bytes)) s =
        .next (removed.offerFrame (receivedFrame length code tag bytes)) := by
      rw [exec_exchangeEnd hx, ← State.receiveFrame_offers hlength, hremoved]
      cases hr : x.response with
      | none => exact congrArg _ (State.endExchange_unanswered hr)
      | some r =>
        by_cases hwhole : 6 + r.params.length ≤ (length :: code :: tag :: bytes).length
        · simp only [if_pos hwhole]
          exact congrArg _ (State.endExchange_removes hr hwhole)
        · simp only [if_neg hwhole]
          exact congrArg _ (State.endExchange_cut hr (not_le.mp hwhole))
    refine ⟨fun hroom => ?_, fun hfour => ?_⟩
    · rw [hend, State.offerFrame_joins hroom]
      rfl
    · rw [hend, State.offerFrame_drops hfour]
      rfl
  case starts =>
    intro i s x r more hw hi hx hr hq hresponses hbound hwhole
    have hidle : s.offResponse.clu.queue = [] := hq
    have hfull : s.offResponse.responseFull = false := State.offResponse_not_full hresponses hbound
    refine ⟨startHost i s.offResponse, ?_, exec_of_host s.offResponse hi⟩
    rw [exec_exchangeEnd hx, State.endExchange_removes hr hwhole, State.startWaiting_nil hidle,
      State.receiveFrame_commandFrame hw hi hidle hfull]

end Sys2Proof.Machine
end


section
namespace Sys2Proof.Machine
open Sys2Proof

/-! ## STATUS and READ NOTICES -/

section
variable {s t : State} {tag count : Byte} {why : Result} {params : List Byte}

/-! ### READ NOTICES (R181) -/

theorem takeReadNotices_out_of_range (h : count = 0 ∨ 8 < count.toNat) :
    takeReadNotices count s = (s, .now .badField []) := if_pos h

theorem takeReadNotices_removes (hlow : 1 ≤ count.toNat) (hhigh : count.toNat ≤ 8) : takeReadNotices count s =
    ({ s with clu := Clu.driveAttn { s.clu with notices := s.clu.notices.drop count.toNat, overflow := false } },
      .now .ok (nat1 (min count.toNat s.clu.notices.length) ++ (s.clu.notices.take count.toNat).flatMap Notice.bytes ++
        nat1 (s.clu.notices.length - count.toNat) ++ flag1 s.clu.overflow)) := by
  have hrange : ¬ (count = 0 ∨ 8 < count.toNat) := by
    rintro (rfl | hover)
    · exact absurd hlow (by decide)
    · omega
  simp only [takeReadNotices, if_neg hrange, List.length_take, List.length_drop]

theorem exec_readNotices (hfull : s.responseFull = false) (ht : takeReadNotices count s = (t, .now why params)) :
    exec (.readNotices tag count) s = .next (t.respond ⟨0x81, tag, why, params⟩) :=
  congrArg Host.Outcome.next (State.start_now (take := fun _ => takeReadNotices count) hfull ht)

/-- A response asserts ATTN, at whatever level it stood (R179). -/
theorem State.respond_driveAttn (s : State) (c : Clu) (x : Response) :
    State.respond { s with clu := c.driveAttn } x = State.respond { s with clu := c } x := rfl

/-! ### STATUS (R182) -/

theorem exec_status (hfull : s.responseFull = false) (ht : takeStatus s = (t, .now why params)) :
    exec (.status tag) s = .next (t.respond ⟨0x80, tag, why, params⟩) :=
  congrArg Host.Outcome.next (State.start_now (take := fun _ => takeStatus) hfull ht)

end

/-! ### The bytes of a notice (R192) -/

theorem NoticeKind.bytes_length (k : NoticeKind) : k.bytes.2.length = 5 := by cases k <;> rfl

theorem Notice.bytes_length (n : Notice) : n.bytes.length = 10 := by
  simp [Notice.bytes, bytes4, n.kind.bytes_length]

/-- Settles O18: each command by what its `take` answers, and the response asserts ATTN whatever READ NOTICES left it
at (R179). -/
theorem readNoticesAndStatus : Obligations.ReadNoticesAndStatus := by
  refine ⟨fun tag count s hfull => ⟨fun hrange => ?_, fun hlow hhigh => ?_⟩, fun tag s hfull => ?_,
    fun n => ⟨n.bytes_length, ?_⟩⟩
  · exact exec_readNotices hfull (takeReadNotices_out_of_range hrange)
  · exact (exec_readNotices hfull (takeReadNotices_removes hlow hhigh)).trans
      (congrArg _ (s.respond_driveAttn _ _))
  · rw [exec_status hfull rfl, State.resetting]
    cases s.msu.flush <;> rfl
  · rw [Notice.bytes]
    cases n.kind with
    | reportDropped l => cases l <;> rfl
    | closeStarted period cause => cases cause <;> rfl
    | _ => simp [NoticeKind.bytes]

end Sys2Proof.Machine
end

section
namespace Sys2Proof.Machine
open Sys2Proof

/-! ## RETURN_CHARACTER_RECEIVED and REPORT_TIMEOUT -/

/-! ### The bits of a character and the bytes of a report -/

section
variable {lead kind a2 a1 a0 tag zone : Byte} {address : Nat}

/-- What a return link samples of the bits that its format has, bit by bit (R130, R187). -/
theorem Receiver.sampled_format (r : Receiver) (data : Byte) (parity stop : Bool) (rest : List Bool) :
    r.sampled (false :: (lsbFirst data ++ ((if r.parity = .none then [] else [parity]) ++ stop :: rest))) =
      some ⟨data, false, decide (r.parity ≠ .none) && parity, stop⟩ := by
  rw [Receiver.sampled, sampleCharacter_lsbFirst]
  cases hp : r.parity <;> rfl

theorem join3_toNat (b2 b1 b0 : Byte) : (join3 b2 b1 b0).toNat = 65536 * b2.toNat + 256 * b1.toNat + b0.toNat := by
  have hlow : (b1 ++ b0).toNat = 256 * b1.toNat + b0.toNat := by
    rw [BitVec.toNat_append, ← Nat.shiftLeft_add_eq_or_of_lt b0.isLt, Nat.shiftLeft_eq, Nat.mul_comm]
  rw [join3, BitVec.toNat_append, ← Nat.shiftLeft_add_eq_or_of_lt (b1 ++ b0).isLt, Nat.shiftLeft_eq, hlow]
  omega

/-- The report of seven characters, by the number its three address bytes make (R131, R187). -/
theorem reportOf_eq (h : address = 65536 * a2.toNat + 256 * a1.toNat + a0.toNat) :
    reportOf [lead, kind, a2, a1, a0, tag, zone] =
      if address = 0 ∨ 1048575 < address ∨ 15 < zone.toNat then none
      else if kind = 1 then if 127 < tag.toNat then none else some (.ack address tag.toNat zone.toNat)
      else if kind = 2 then some (.register address zone.toNat)
      else if kind = 3 then some (.leave address zone.toNat)
      else none := by
  rw [h, ← join3_toNat]
  rfl

theorem reportOf_ill_formed (h : address = 65536 * a2.toNat + 256 * a1.toNat + a0.toNat)
    (hbad : address = 0 ∨ 1048575 < address ∨ 15 < zone.toNat ∨ (kind ≠ 1 ∧ kind ≠ 2 ∧ kind ≠ 3) ∨
      (kind = 1 ∧ 127 < tag.toNat)) : reportOf [lead, kind, a2, a1, a0, tag, zone] = none := by
  rw [reportOf_eq h]
  by_cases hrange : address = 0 ∨ 1048575 < address ∨ 15 < zone.toNat
  · exact if_pos hrange
  · have hkind : (kind ≠ 1 ∧ kind ≠ 2 ∧ kind ≠ 3) ∨ (kind = 1 ∧ 127 < tag.toNat) := by tauto
    rw [if_neg hrange]
    rcases hkind with ⟨hack, hregister, hleave⟩ | ⟨hack, htag⟩
    · rw [if_neg hack, if_neg hregister, if_neg hleave]
    · rw [if_pos hack, if_pos htag]

theorem reportOf_in_range (h : address = 65536 * a2.toNat + 256 * a1.toNat + a0.toNat) (hlow : 1 ≤ address)
    (hhigh : address ≤ 1048575) (hzone : zone.toNat ≤ 15) : reportOf [lead, kind, a2, a1, a0, tag, zone] =
      if kind = 1 then if 127 < tag.toNat then none else some (.ack address tag.toNat zone.toNat)
      else if kind = 2 then some (.register address zone.toNat)
      else if kind = 3 then some (.leave address zone.toNat)
      else none := by
  rw [reportOf_eq h, if_neg (by omega)]

end

/-! ### What becomes of the link -/

section
variable {s : State} {l : Link} {data : Byte} {bad parity stop : Bool} {chars : List Byte} {rep : Report} {k : Nat}

@[simp] theorem State.putReceiver_putReceiver (s : State) (l : Link) (r r' : Receiver) :
    (s.putReceiver l r).putReceiver l r' = s.putReceiver l r' := by cases l <;> rfl

/-- A link once its report has ended: HUNTING, with nothing in assembly and the timer stopped (R131). -/
def Receiver.ended (r : Receiver) : Receiver :=
  { r with state := .hunting, chars := [], spoiled := false, timer := none }

/-- A link that counts the report in assembly rejected (R131). -/
def Receiver.endRejected (r : Receiver) : Receiver := { r.ended with rejected := min (r.rejected + 1) 65535 }

theorem State.endReport_rejected {spoiled : Bool} (h : spoiled = true ∨ reportOf chars = none) :
    s.endReport l chars spoiled = s.putReceiver l (s.receiver l).endRejected := by
  unfold State.endReport
  split
  next hrep => rw [hrep] at h; simp at h
  next => rfl

theorem State.endReport_offered (h : reportOf chars = some rep) :
    s.endReport l chars false = (s.putReceiver l (s.receiver l).ended).offerReport l rep := by
  unfold State.endReport
  rw [h]
  rfl

/-- A report joins the FIFO of a link while it holds fewer than 16 (R132). -/
theorem State.offerReport_joins (h : (s.receiver l).fifo.length < 16) :
    s.offerReport l rep = s.putReceiver l { s.receiver l with fifo := (s.receiver l).fifo ++ [rep] } := if_pos h

/-- A full FIFO drops the report; a drop later in the episode raises no notice (R132). -/
theorem State.offerReport_drops_again (h : 16 ≤ (s.receiver l).fifo.length) (he : (s.receiver l).episode = true) :
    s.offerReport l rep =
      s.putReceiver l { s.receiver l with dropped := min ((s.receiver l).dropped + 1) 65535 } := by
  refine (if_neg (not_lt.mpr h)).trans ((if_pos he).trans ?_)
  rw [← he]
  rfl

/-- A full FIFO drops the report; the first drop begins an episode and raises REPORT DROPPED (R132). -/
theorem State.offerReport_drops_first (h : 16 ≤ (s.receiver l).fifo.length) (he : (s.receiver l).episode = false) :
    s.offerReport l rep = (s.putReceiver l { s.receiver l with
      dropped := min ((s.receiver l).dropped + 1) 65535, episode := true }).raise (.reportDropped l) :=
  (if_neg (not_lt.mpr h)).trans (if_neg (by rw [he]; exact Bool.false_ne_true))

/-! ### RETURN_CHARACTER_RECEIVED (R130 to R132) -/

theorem exec_returnCharacterReceived (s : State) (l : Link) (data : Byte) (parity stop : Bool) :
    exec (.returnCharacterReceived l data parity stop) s =
      .next (s.returnCharacter l data (!stop || parityError (s.receiver l).parity data none parity)) := rfl

theorem State.returnCharacter_disabled (hs : (s.receiver l).state = .disabled) : s.returnCharacter l data bad = s := by
  rw [State.returnCharacter, hs]

theorem State.returnCharacter_begins (hs : (s.receiver l).state = .hunting) (hdata : data = 0xA5) (hbad : bad = false) :
    s.returnCharacter l data bad = s.putReceiver l { s.receiver l with
      state := .assembling, chars := [0xA5], spoiled := false, timer := some 0 } := by
  rw [State.returnCharacter, hs]
  subst hdata
  exact if_pos ⟨rfl, hbad⟩

theorem State.returnCharacter_hunts (hs : (s.receiver l).state = .hunting) (h : data ≠ 0xA5 ∨ bad = true) :
    s.returnCharacter l data bad = s := by
  rw [State.returnCharacter, hs]
  refine if_neg fun ⟨hdata, hbad⟩ => ?_
  rcases h with h | h
  · exact h hdata
  · rw [hbad] at h; cases h

theorem State.returnCharacter_continues (hs : (s.receiver l).state = .assembling)
    (hlen : (s.receiver l).chars.length < 6) : s.returnCharacter l data bad = s.putReceiver l { s.receiver l with
      chars := (s.receiver l).chars ++ [data], spoiled := (s.receiver l).spoiled || bad, timer := some 0 } := by
  rw [State.returnCharacter, hs]
  refine (if_neg ?_).trans (by rw [← hs])
  rw [List.length_append, List.length_singleton]
  omega

theorem State.returnCharacter_ends (hs : (s.receiver l).state = .assembling)
    (hlen : 6 ≤ (s.receiver l).chars.length) : s.returnCharacter l data bad =
      s.endReport l ((s.receiver l).chars ++ [data]) ((s.receiver l).spoiled || bad) := by
  rw [State.returnCharacter, hs]
  refine if_pos ?_
  rw [List.length_append, List.length_singleton]
  omega

theorem State.returnCharacter_rejected (hs : (s.receiver l).state = .assembling)
    (hlen : 6 ≤ (s.receiver l).chars.length)
    (h : (s.receiver l).spoiled = true ∨ bad = true ∨ reportOf ((s.receiver l).chars ++ [data]) = none) :
    s.returnCharacter l data bad = s.putReceiver l (s.receiver l).endRejected := by
  rw [State.returnCharacter_ends hs hlen, State.endReport_rejected]
  rwa [Bool.or_eq_true, or_assoc]

theorem State.returnCharacter_offered (hs : (s.receiver l).state = .assembling)
    (hlen : 6 ≤ (s.receiver l).chars.length) (hspoiled : (s.receiver l).spoiled = false) (hbad : bad = false)
    (hrep : reportOf ((s.receiver l).chars ++ [data]) = some rep) :
    s.returnCharacter l data bad = (s.putReceiver l (s.receiver l).ended).offerReport l rep := by
  rw [State.returnCharacter_ends hs hlen, hspoiled, hbad]
  exact State.endReport_offered hrep

/-! ### REPORT_TIMEOUT (R131) -/

theorem Receiver.timedOut_iff {r : Receiver} (hs : r.state = .assembling) (ht : r.timer = some k) :
    r.timedOut = true ↔ 3 ≤ k := by
  rw [Receiver.timedOut, hs, ht]
  exact decide_eq_true_iff

theorem exec_reportTimeout_due (h : (s.receiver l).timedOut = true) :
    exec (.reportTimeout l) s = .next (s.putReceiver l (s.receiver l).endRejected) :=
  congrArg Host.Outcome.next (if_pos h)

theorem exec_reportTimeout_early (h : ¬ (s.receiver l).timedOut = true) : exec (.reportTimeout l) s = .next s :=
  congrArg Host.Outcome.next (if_neg h)

theorem exec_reportTimeout_idle (hs : (s.receiver l).state ≠ .assembling) : exec (.reportTimeout l) s = .next s :=
  exec_reportTimeout_early (by simp [Receiver.timedOut, hs])

end

/-- Settles O52: the bits are `Receiver.sampled_format`; what a character does is one lemma for each state of the link,
and at the seventh `State.returnCharacter_rejected` or, for a good report, what its offer to the FIFO does; the bytes
of a report are `reportOf_ill_formed` and `reportOf_in_range`. -/
theorem reportAssembly : Obligations.ReportAssembly := by
  refine ⟨fun r bits => rfl, fun r data parity stop rest => ?_, ?character,
    fun l s k hs ht => ⟨fun hk => ?_, fun hk => ?_⟩, fun l s => exec_reportTimeout_idle,
    fun lead kind a2 a1 a0 tag zone address haddress =>
      ⟨reportOf_ill_formed haddress, fun hlow hhigh hzone => ?_⟩⟩
  · rw [← Receiver.sampled_format, lsbFirst, List.append_assoc]
  case character =>
    rintro l data parity stop s r ended bad rfl hbad rfl
    rw [exec_returnCharacterReceived, ← hbad]
    refine ⟨fun hs => ?_, fun hs => ⟨fun hdata hgood => ?_, fun hother => ?_⟩, fun hs =>
      ⟨fun hlen => ?_, fun hlen => ⟨fun hreject => ?_, fun rep hspoiled hgood hrep => ?_⟩⟩⟩
    · rw [State.returnCharacter_disabled hs]
    · rw [State.returnCharacter_begins hs hdata hgood]
    · rw [State.returnCharacter_hunts hs hother]
    · rw [State.returnCharacter_continues hs hlen]
    · rw [State.returnCharacter_rejected hs hlen hreject]
      rfl
    · rw [State.returnCharacter_offered hs hlen hspoiled hgood hrep]
      have hended : (s.putReceiver l (s.receiver l).ended).receiver l = (s.receiver l).ended :=
        State.receiver_putReceiver ..
      refine ⟨fun hroom => ?_, fun hfull hepisode => ?_, fun hfull hepisode => ?_⟩
      · rw [State.offerReport_joins (by rwa [hended]), hended, State.putReceiver_putReceiver]
        rfl
      · rw [State.offerReport_drops_again (by rwa [hended]) (by rwa [hended]), hended, State.putReceiver_putReceiver]
        rfl
      · rw [State.offerReport_drops_first (by rwa [hended]) (by rwa [hended]), hended, State.putReceiver_putReceiver]
        rfl
  · exact exec_reportTimeout_due ((Receiver.timedOut_iff hs ht).mpr hk)
  · exact exec_reportTimeout_early fun hdue => absurd ((Receiver.timedOut_iff hs ht).mp hdue) (not_le.mpr hk)
  · rw [reportOf_in_range haddress hlow hhigh hzone]
    refine ⟨?_, ?_, ?_⟩
    · rintro rfl htag
      rw [if_pos rfl, if_neg (not_lt.mpr htag)]
    · rintro rfl
      rfl
    · rintro rfl
      rfl

end Sys2Proof.Machine
end


section
/-! What every step keeps of the tables, the FIFOs, the settings and the records: one relation between the states before
and after, `State.Respects`, which the parts of an event compose. -/

namespace Sys2Proof.Machine
open Sys2Proof

/-! ## The invariants block by block -/

/-! ### The tables -/

/-- An index in its canonical form: buckets rising, no empty chain listed. -/
def indexCanonical (ix : Sparse (List Nat)) : Prop := ix.rising = true ∧ ix.all (fun p => p.2 != []) = true

/-- An index with no chain above 12 records (R9). -/
def indexBounded (ix : Sparse (List Nat)) : Prop := ix.all (fun p => decide (p.2.length ≤ Config.chainLimit)) = true

/-- What one step of the table may become: in canonical form, within the chain length, and of a capacity of R1. -/
structure Stu.Keeps (a b : Stu) : Prop where
  records : a.records.rising = true → b.records.rising = true
  numbers : indexCanonical a.numberIndex → indexCanonical b.numberIndex
  addresses : indexCanonical a.addressIndex → indexCanonical b.addressIndex
  numberChains : indexBounded a.numberIndex → indexBounded b.numberIndex
  addressChains : indexBounded a.addressIndex → indexBounded b.addressIndex
  capacity : a.capacity ∈ [0, 8192, 16384, 32768, 65536] → b.capacity ∈ [0, 8192, 16384, 32768, 65536]

theorem Stu.Keeps.refl (a : Stu) : a.Keeps a := ⟨id, id, id, id, id, id⟩

theorem Stu.Keeps.trans {a b c : Stu} (h : a.Keeps b) (k : b.Keeps c) : a.Keeps c :=
  ⟨k.records ∘ h.records, k.numbers ∘ h.numbers, k.addresses ∘ h.addresses, k.numberChains ∘ h.numberChains,
    k.addressChains ∘ h.addressChains, k.capacity ∘ h.capacity⟩

/-- The slot table in its canonical form. -/
def Msu.canonical (m : Msu) : Prop :=
  m.slots.rising = true ∧ m.slots.all (fun p => p.2 != { reuse := 0, message := none }) = true

theorem State.canonical_iff {s : State} : s.canonical = true ↔
    s.stu.records.rising = true ∧ indexCanonical s.stu.numberIndex ∧ indexCanonical s.stu.addressIndex ∧
      s.msu.canonical := by
  simp only [State.canonical, indexCanonical, Msu.canonical, Bool.and_eq_true]
  tauto

theorem State.chainsBounded_iff {s : State} : s.chainsBounded = true ↔
    indexBounded s.stu.numberIndex ∧ indexBounded s.stu.addressIndex := by
  rw [State.chainsBounded, Bool.and_eq_true]
  rfl

theorem indexCanonical.putChain {ix : Sparse (List Nat)} (h : indexCanonical ix) (b : Nat) (c : List Nat) :
    indexCanonical (putChain ix b c) :=
  ⟨putChain_rising h.1, putChain_all h.2 fun hc => by simpa using hc⟩

theorem indexBounded.putChain {ix : Sparse (List Nat)} {b : Nat} {c : List Nat} (h : indexBounded ix)
    (hc : c.length ≤ Config.chainLimit) : indexBounded (putChain ix b c) :=
  putChain_all h fun _ => decide_eq_true hc

theorem indexBounded.chainAt {ix : Sparse (List Nat)} (h : indexBounded ix) (b : Nat) :
    (chainAt ix b).length ≤ Config.chainLimit := by
  unfold Machine.chainAt
  cases hl : ix.look b with
  | none => simp
  | some c => exact of_decide_eq_true (Sparse.all_look h hl)

theorem indexBounded.erase {ix : Sparse (List Nat)} (h : indexBounded ix) (b i : Nat) :
    indexBounded (Machine.putChain ix b ((Machine.chainAt ix b).erase i)) :=
  h.putChain (List.length_erase_le.trans (h.chainAt b))

theorem indexBounded.cons {ix : Sparse (List Nat)} (h : indexBounded ix) {b : Nat} (i : Nat)
    (hroom : chainHasRoom (Machine.chainAt ix b) = true) :
    indexBounded (Machine.putChain ix b (i :: Machine.chainAt ix b)) :=
  h.putChain (of_decide_eq_true hroom)

theorem Msu.canonical.putSlot {s : State} (h : s.msu.canonical) (n : Nat) (v : Slot) : (s.putSlot n v).msu.canonical := by
  simp only [State.putSlot]
  split
  next => exact ⟨Sparse.rising_drop h.1, Sparse.all_drop h.2⟩
  next hv => exact ⟨Sparse.rising_put h.1, Sparse.all_put h.2 (by simpa using hv)⟩

/-! ### Lines, links and the settings of the other units -/

structure Line.Keeps (l l' : Line) : Prop where
  inRange : l.inRange = true → l'.inRange = true
  bounded : l.bounded = true → l'.bounded = true

theorem Line.Keeps.refl (l : Line) : l.Keeps l := ⟨id, id⟩

theorem Line.Keeps.trans {a b c : Line} (h : a.Keeps b) (k : b.Keeps c) : a.Keeps c :=
  ⟨k.inRange ∘ h.inRange, k.bounded ∘ h.bounded⟩

/-- A return link's settings in range (R129). -/
def Receiver.inRange (r : Receiver) : Prop := r.n ≤ 4095 ∧ r.e ≤ 1

structure Receiver.Keeps (r r' : Receiver) : Prop where
  inRange : r.inRange → r'.inRange
  bounded : r.bounded = true → r'.bounded = true

theorem Receiver.Keeps.refl (r : Receiver) : r.Keeps r := ⟨id, id⟩

theorem Receiver.Keeps.trans {a b c : Receiver} (h : a.Keeps b) (k : b.Keeps c) : a.Keeps c :=
  ⟨k.inRange ∘ h.inRange, k.bounded ∘ h.bounded⟩

structure Dsu.Keeps (d d' : Dsu) : Prop where
  rotation : d.rotationGood = true → d'.rotationGood = true
  overrides : d'.overrides.length = d.overrides.length
  divider : d.divider ≤ 255 → d'.divider ≤ 255

theorem Dsu.Keeps.refl (d : Dsu) : d.Keeps d := ⟨id, rfl, id⟩

theorem Dsu.Keeps.trans {a b c : Dsu} (h : a.Keeps b) (k : b.Keeps c) : a.Keeps c :=
  ⟨k.rotation ∘ h.rotation, k.overrides.trans h.overrides, k.divider ∘ h.divider⟩

/-- The retry policy in range (R149). -/
def Aru.inRange (a : Aru) : Prop :=
  (10 ≤ a.w0 ∧ a.w0 ≤ 600) ∧ (1 ≤ a.aMax ∧ a.aMax ≤ 7) ∧ 1 ≤ a.hold ∧ a.hold ≤ 65535

/-- The settings and counters of the Period Unit in range, but for the period number (R153). -/
def Pdu.inRange (p : Pdu) : Prop :=
  (1 ≤ p.p ∧ p.p ≤ 65535) ∧ p.e ≤ 1 ∧ p.tickMinute < Config.minuteTicks ∧ p.minute < Config.minuteModulus ∧
    p.closeAt < Config.minuteModulus

structure Pdu.Keeps (p p' : Pdu) : Prop where
  inRange : p.inRange → p'.inRange
  period : p.period < Config.periodModulus → p'.period < Config.periodModulus
  extract : p.extract.length ≤ Config.extractFifo → p'.extract.length ≤ Config.extractFifo
  tick : p'.tick = p.tick

theorem Pdu.Keeps.refl (p : Pdu) : p.Keeps p := ⟨id, id, id, rfl⟩

theorem Pdu.Keeps.trans {a b c : Pdu} (h : a.Keeps b) (k : b.Keeps c) : a.Keeps c :=
  ⟨k.inRange ∘ h.inRange, k.period ∘ h.period, k.extract ∘ h.extract, k.tick.trans h.tick⟩

/-- The responses waiting and the places held (R175). -/
def Clu.load (c : Clu) : Nat := c.responses.length + c.inProgress.length

theorem State.responseFull_iff {s : State} : s.responseFull = true ↔ 8 ≤ s.clu.load := decide_eq_true_iff

structure Clu.Keeps (c c' : Clu) : Prop where
  notices : c.notices.length ≤ Config.noticeQueue → c'.notices.length ≤ Config.noticeQueue
  resetSeen : c'.resetSeen = true → c.resetSeen = true

theorem Clu.Keeps.refl (c : Clu) : c.Keeps c := ⟨id, id⟩

theorem Clu.Keeps.trans {a b c : Clu} (h : a.Keeps b) (k : b.Keeps c) : a.Keeps c :=
  ⟨k.notices ∘ h.notices, h.resetSeen ∘ k.resetSeen⟩

theorem Four.forall_get {α : Type} {p : α → Prop} {f : Four α} :
    (∀ n, p (f.get n)) ↔ p f.l0 ∧ p f.l1 ∧ p f.l2 ∧ p f.l3 :=
  ⟨fun h => ⟨h 0, h 1, h 2, h 3⟩, fun ⟨h0, h1, h2, h3⟩ n => by
    match n with
    | 0 => exact h0
    | 1 => exact h1
    | 2 => exact h2
    | 3 => exact h3⟩

theorem State.forall_receiver {p : Receiver → Prop} {s : State} : (∀ l, p (s.receiver l)) ↔ p s.rla ∧ p s.rlb :=
  ⟨fun h => ⟨h .a, h .b⟩, fun ⟨ha, hb⟩ l => by cases l; exacts [ha, hb]⟩

/-- Every setting in range, block by block. -/
theorem State.settingsInRange_iff {s : State} : s.settingsInRange = true ↔
    s.stu.capacity ∈ [0, 8192, 16384, 32768, 65536] ∧ s.chu.inRange = true ∧ (∀ n, (s.line n).inRange = true) ∧
      (s.dsu.rotationGood = true ∧ s.dsu.overrides.length = 16 ∧ s.dsu.divider ≤ 255) ∧
      (∀ l, (s.receiver l).inRange) ∧ s.aru.inRange ∧ s.pdu.inRange ∧ s.pdu.period < Config.periodModulus := by
  have hlines := Four.forall_get (p := fun l => Line.inRange l = true) (f := s.lines)
  have hlinks := State.forall_receiver (p := Receiver.inRange) (s := s)
  simp only [State.line, hlines, hlinks]
  simp only [State.settingsInRange, Receiver.inRange, Aru.inRange, Pdu.inRange, Bool.and_eq_true, decide_eq_true_eq,
    beq_iff_eq, List.contains_iff_mem]
  tauto

/-- Every FIFO within its capacity, block by block. -/
theorem State.bounded_iff {s : State} : s.bounded = true ↔
    s.pdu.extract.length ≤ Config.extractFifo ∧ s.clu.notices.length ≤ Config.noticeQueue ∧
      s.clu.queue.length ≤ Config.commandQueue ∧ s.clu.load ≤ Config.responseFifo ∧
      (∀ n, (s.line n).bounded = true) ∧ ∀ l, (s.receiver l).bounded = true := by
  have hlines := Four.forall_get (p := fun l => Line.bounded l = true) (f := s.lines)
  have hlinks := State.forall_receiver (p := fun r => Receiver.bounded r = true) (s := s)
  simp only [State.line, hlines, hlinks]
  simp only [State.bounded, Clu.load, Bool.and_eq_true, decide_eq_true_eq]
  tauto

/-! ### The records -/

theorem State.recordsInRange_iff {s : State} : s.recordsInRange = true ↔
    s.stu.records.all (fun p => p.2.inRange) = true ∧ s.pdu.period < Config.periodModulus ∧
      ∀ l, (s.receiver l).fifo.all Report.inRange = true := by
  have hlinks := State.forall_receiver (p := fun r => r.fifo.all Report.inRange = true) (s := s)
  simp only [hlinks]
  simp only [State.recordsInRange, Bool.and_eq_true, decide_eq_true_eq, and_assoc]

theorem State.record_inRange {s : State} {i : Nat} {r : Record} (h : s.recordsInRange = true)
    (hr : s.record? i = some r) : r.inRange = true :=
  Sparse.all_look (p := fun p => p.2.inRange) (State.recordsInRange_iff.mp h).1 hr

/-! ### The waiters that R165 marks "once" -/

/-- The kinds of the waiters that have at most one place in the list (R165). -/
inductive Once where
  | line (n : Fin 4)
  | arbiter
  | completion
  | report (l : Link)
  | expiry
  | walk
  deriving DecidableEq

/-- A closing entry that holds a link, the expiry or the flush walk stands for it (R166). -/
def Holder.once : Holder → Option Once
  | .report l => some (.report l)
  | .expiry => some .expiry
  | .walk => some .walk
  | .alone _ | .answer .. => none

def Waiter.once : Waiter → Option Once
  | .line n => some (.line n)
  | .arbiter => some .arbiter
  | .completion => some .completion
  | .report l => some (.report l)
  | .expiry => some .expiry
  | .walk => some .walk
  | .closing _ holder => holder.once
  | .command .. => none

/-- The kinds marked "once" that stand in a list of waiters. -/
def oncesOf (l : List Waiter) : List Once := l.filterMap Waiter.once

theorem count_oncesOf (l : List Waiter) (o : Once) : (oncesOf l).count o = l.countP fun w => w.once == some o := by
  rw [oncesOf, List.count_filterMap]

/-- The kinds that one constructor of the waiters alone stands for. -/
theorem Waiter.once_eq_iff (w : Waiter) :
    (∀ n, w.once = some (.line n) ↔ w = .line n) ∧ (w.once = some .arbiter ↔ w = .arbiter) ∧
      (w.once = some .completion ↔ w = .completion) := by
  rcases w with _ | _ | _ | _ | _ | _ | _ | ⟨i, _ | _ | _ | _ | _⟩ <;> simp [Waiter.once, Holder.once]

/-- The kinds that a closing entry may stand for too (R166). -/
theorem Waiter.once_beq (w : Waiter) :
    (∀ l, (w.once == some (.report l)) = match w with
      | .report l' => l' == l
      | .closing _ (.report l') => l' == l
      | _ => false) ∧
    ((w.once == some .expiry) = match w with | .expiry => true | .closing _ .expiry => true | _ => false) ∧
    ((w.once == some .walk) = match w with | .walk => true | .closing _ .walk => true | _ => false) := by
  rcases w with _ | _ | _ | _ | _ | _ | _ | ⟨i, _ | _ | _ | _ | _⟩ <;>
    simp [Waiter.once, Holder.once, Bool.beq_eq_decide_eq]

theorem forall_once {p : Once → Prop} : (∀ o, p o) ↔ (∀ n, p (.line n)) ∧ p .arbiter ∧ p .completion ∧
    (∀ l, p (.report l)) ∧ p .expiry ∧ p .walk :=
  ⟨fun h => ⟨fun n => h _, h _, h _, fun l => h _, h _, h _⟩, fun ⟨hl, ha, hc, hr, he, hw⟩ o => by
    cases o
    exacts [hl _, ha, hc, hr _, he, hw]⟩

theorem State.waitersOnce_iff {s : State} : s.waitersOnce = true ↔ (oncesOf s.pdu.waiters).Nodup := by
  have hline : ∀ n w, (Waiter.once w == some (.line n)) = (w == .line n) := fun n w => by
    rw [Bool.eq_iff_iff, beq_iff_eq, beq_iff_eq, w.once_eq_iff.1 n]
  have harbiter : ∀ w, (Waiter.once w == some .arbiter) = (w == .arbiter) := fun w => by
    rw [Bool.eq_iff_iff, beq_iff_eq, beq_iff_eq, w.once_eq_iff.2.1]
  have hcompletion : ∀ w, (Waiter.once w == some .completion) = (w == .completion) := fun w => by
    rw [Bool.eq_iff_iff, beq_iff_eq, beq_iff_eq, w.once_eq_iff.2.2]
  rw [List.nodup_iff_count_le_one, forall_once]
  simp only [count_oncesOf, hline, harbiter, hcompletion, (Waiter.once_beq _).1, (Waiter.once_beq _).2.1,
    (Waiter.once_beq _).2.2]
  simp only [State.waitersOnce, Bool.and_eq_true, List.all_eq_true, List.mem_finRange, forall_const,
    decide_eq_true_eq, List.mem_cons, List.not_mem_nil, or_false, forall_eq_or_imp, forall_eq, and_assoc]
  have hlinks : ∀ p : Link → Prop, (∀ l, p l) ↔ p .a ∧ p .b := fun p =>
    ⟨fun h => ⟨h _, h _⟩, fun ⟨ha, hb⟩ l => by cases l; exacts [ha, hb]⟩
  rw [hlinks, and_assoc] <;> rfl

end Sys2Proof.Machine
end


section
namespace Sys2Proof.Machine
open Sys2Proof

/-! ## The relation between the states before and after -/

/-- From `s` to `t` every table keeps its form, every FIFO its capacity and every setting and record its range, and no
time passes. -/
structure State.Respects (s t : State) : Prop where
  records : s.recordsInRange = true → t.recordsInRange = true
  stu : s.stu.Keeps t.stu
  msu : s.msu.canonical → t.msu.canonical
  chu : s.chu.inRange = true → t.chu.inRange = true
  line : ∀ n, (s.line n).Keeps (t.line n)
  dsu : s.dsu.Keeps t.dsu
  receiver : ∀ l, (s.receiver l).Keeps (t.receiver l)
  aru : s.aru.inRange → t.aru.inRange
  pdu : s.pdu.Keeps t.pdu
  clu : s.clu.Keeps t.clu
  pending : t.pending = s.pending

namespace State.Respects
variable {s t u : State}

theorem refl (s : State) : s.Respects s :=
  ⟨id, .refl _, id, id, fun _ => .refl _, .refl _, fun _ => .refl _, id, .refl _, .refl _, rfl⟩

theorem trans (h : s.Respects t) (k : t.Respects u) : s.Respects u :=
  ⟨k.records ∘ h.records, h.stu.trans k.stu, k.msu ∘ h.msu, k.chu ∘ h.chu, fun n => (h.line n).trans (k.line n),
    h.dsu.trans k.dsu, fun l => (h.receiver l).trans (k.receiver l), k.aru ∘ h.aru, h.pdu.trans k.pdu,
    h.clu.trans k.clu, k.pending.trans h.pending⟩

end State.Respects

/-- The kinds marked "once" after a part of an event: those before, and at most one more, the kind that the operation
waits as. -/
def Claims (k : Option Once) (before after : List Once) : Prop :=
  after.Perm before ∨ ∃ o, k = some o ∧ after.Perm (o :: before)

/-- From `s` to `t` one part of an event does its work, waiting at most as the kind `k`: it takes no command from the
queue, and a command that it completes leaves its place to its response. -/
structure State.Works (k : Option Once) (s t : State) : Prop extends s.Respects t where
  load : t.clu.load = s.clu.load
  queue : t.clu.queue = s.clu.queue
  waits : Claims k (oncesOf s.pdu.waiters) (oncesOf t.pdu.waiters)

namespace State.Works
variable {k : Option Once} {s t u : State}

theorem refl (k : Option Once) (s : State) : Works k s s := ⟨.refl s, rfl, rfl, .inl (.refl _)⟩

/-- A part that does not wait follows one that may. -/
theorem trans (h : Works k s t) (g : Works none t u) : Works k s u := by
  refine ⟨h.toRespects.trans g.toRespects, g.load.trans h.load, g.queue.trans h.queue, ?_⟩
  have hperm : (oncesOf u.pdu.waiters).Perm (oncesOf t.pdu.waiters) := by
    rcases g.waits with hperm | ⟨o, ho, -⟩
    · exact hperm
    · cases ho
  rcases h.waits with hw | ⟨o, ho, hw⟩
  · exact .inl (hperm.trans hw)
  · exact .inr ⟨o, ho, hperm.trans hw⟩

/-- A part that may wait follows one that does not. -/
theorem andThen (h : Works none s t) (g : Works k t u) : Works k s u := by
  refine ⟨h.toRespects.trans g.toRespects, g.load.trans h.load, g.queue.trans h.queue, ?_⟩
  have hperm : (oncesOf t.pdu.waiters).Perm (oncesOf s.pdu.waiters) := by
    rcases h.waits with hperm | ⟨o, ho, -⟩
    · exact hperm
    · cases ho
  rcases g.waits with hw | ⟨o, ho, hw⟩
  · exact .inl (hw.trans hperm)
  · exact .inr ⟨o, ho, hw.trans (hperm.cons o)⟩

theorem widen (h : Works none s t) : Works k s t := h.andThen (.refl k t)

/-! ### A write of one block -/

/-- A table written with its records as they were, or with records in range. -/
theorem withStu (h : Works k s t) {c : Stu} (hc : t.stu.Keeps c)
    (hr : s.recordsInRange = true → c.records.all (fun p => p.2.inRange) = true) : Works k s { t with stu := c } := by
  refine ⟨{ h.toRespects with records := fun hs => ?_, stu := h.stu.trans hc }, h.load, h.queue, h.waits⟩
  obtain ⟨-, hperiod, hreports⟩ := State.recordsInRange_iff.mp (h.records hs)
  exact State.recordsInRange_iff.mpr ⟨hr hs, hperiod, fun l => by cases l; exacts [hreports .a, hreports .b]⟩

theorem records_all (h : Works k s t) (hs : s.recordsInRange = true) :
    t.stu.records.all (fun p => p.2.inRange) = true :=
  (State.recordsInRange_iff.mp (h.records hs)).1

theorem period_lt (h : Works k s t) (hs : s.recordsInRange = true) : t.pdu.period < Config.periodModulus :=
  (State.recordsInRange_iff.mp (h.records hs)).2.1

/-- The free list, the counts and the state of the table, which no invariant of this file reads. -/
theorem withTable (h : Works k s t) {c : Stu} (hrecords : c.records = t.stu.records)
    (hnumbers : c.numberIndex = t.stu.numberIndex) (haddresses : c.addressIndex = t.stu.addressIndex)
    (hcapacity : c.capacity = t.stu.capacity) : Works k s { t with stu := c } :=
  h.withStu ⟨by rw [hrecords]; exact id, by rw [hnumbers]; exact id, by rw [haddresses]; exact id,
    by rw [hnumbers]; exact id, by rw [haddresses]; exact id, by rw [hcapacity]; exact id⟩
    (by rw [hrecords]; exact h.records_all)

theorem withMsu (h : Works k s t) {c : Msu} (hc : c.slots = t.msu.slots) : Works k s { t with msu := c } :=
  ⟨{ h.toRespects with msu := fun hs => by rw [Msu.canonical, hc]; exact h.msu hs }, h.load, h.queue, h.waits⟩

theorem withChu (h : Works k s t) {c : Chu} (hc : t.chu.inRange = true → c.inRange = true) :
    Works k s { t with chu := c } :=
  ⟨{ h.toRespects with chu := hc ∘ h.chu }, h.load, h.queue, h.waits⟩

theorem withDsu (h : Works k s t) {c : Dsu} (hc : t.dsu.Keeps c) : Works k s { t with dsu := c } :=
  ⟨{ h.toRespects with dsu := h.dsu.trans hc }, h.load, h.queue, h.waits⟩

/-- The queues and the buffers of the Dispatch Unit. -/
theorem withTraffic (h : Works k s t) {c : Dsu} (hrotation : c.rotation = t.dsu.rotation)
    (hoverrides : c.overrides = t.dsu.overrides) (hdivider : c.divider = t.dsu.divider) :
    Works k s { t with dsu := c } :=
  h.withDsu ⟨fun hd => by rwa [Dsu.rotationGood, hrotation], by rw [hoverrides], by rw [hdivider]; exact id⟩

theorem withAru (h : Works k s t) {c : Aru} (hc : t.aru.inRange → c.inRange) : Works k s { t with aru := c } :=
  ⟨{ h.toRespects with aru := hc ∘ h.aru }, h.load, h.queue, h.waits⟩

theorem withClu (h : Works k s t) {c : Clu} (hc : t.clu.Keeps c) (hload : c.load = t.clu.load)
    (hqueue : c.queue = t.clu.queue) : Works k s { t with clu := c } :=
  ⟨{ h.toRespects with clu := h.clu.trans hc }, hload.trans h.load, hqueue.trans h.queue, h.waits⟩

theorem withPins (h : Works k s t) (c : Pins) : Works k s { t with pins := c } :=
  ⟨{ h.toRespects with }, h.load, h.queue, h.waits⟩

/-- A write of the Period Unit that leaves the list of waiters. -/
theorem withPdu (h : Works k s t) {c : Pdu} (hc : t.pdu.Keeps c) (hw : c.waiters = t.pdu.waiters) :
    Works k s { t with pdu := c } := by
  refine ⟨{ h.toRespects with records := fun hs => ?_, pdu := h.pdu.trans hc }, h.load, h.queue, by rw [hw]; exact h.waits⟩
  obtain ⟨hrecords, hperiod, hreports⟩ := State.recordsInRange_iff.mp (h.records hs)
  exact State.recordsInRange_iff.mpr ⟨hrecords, hc.period hperiod, fun l => by cases l; exacts [hreports .a, hreports .b]⟩

theorem putLine (h : Works k s t) {n : Fin 4} {l : Line} (hl : (t.line n).Keeps l.drive) : Works k s (t.putLine n l) := by
  refine ⟨⟨h.records, h.stu, h.msu, h.chu, fun m => (h.line m).trans ?_, h.dsu, h.receiver, h.aru, h.pdu, h.clu,
    h.pending⟩, h.load, h.queue, h.waits⟩
  by_cases hm : m = n
  · subst hm; rwa [State.line_putLine_same]
  · rw [State.line_putLine_other _ _ hm]; exact .refl _

theorem putReceiver (h : Works k s t) {l : Link} {r : Receiver} (hr : (t.receiver l).Keeps r)
    (hreports : s.recordsInRange = true → r.fifo.all Report.inRange = true) : Works k s (t.putReceiver l r) := by
  have hcases : ∀ {p : Link → Receiver → Prop}, (∀ m, p m (t.receiver m)) → p l r →
      ∀ m, p m ((t.putReceiver l r).receiver m) := by
    intro p hp hl m
    cases l <;> cases m
    exacts [hl, hp .b, hp .a, hl]
  refine ⟨⟨fun hs => ?_, by simpa using h.stu, by simpa using h.msu, by simpa using h.chu, by simpa [State.line] using h.line,
    by simpa using h.dsu, hcases (p := fun m r => (s.receiver m).Keeps r) h.receiver ((h.receiver l).trans hr),
    by simpa using h.aru, by simpa using h.pdu, by simpa using h.clu, by simpa using h.pending⟩, by simpa using h.load,
    by simpa using h.queue, by simpa using h.waits⟩
  obtain ⟨hrecords, hperiod, hall⟩ := State.recordsInRange_iff.mp (h.records hs)
  refine State.recordsInRange_iff.mpr ⟨by simpa using hrecords, by simpa using hperiod, ?_⟩
  exact hcases (p := fun _ r => r.fifo.all Report.inRange = true) hall (hreports hs)

/-! ### The Command Link Unit -/

theorem raise (h : Works k s t) (kind : NoticeKind) : Works k s (t.raise kind) := by
  rcases t.raise_cases kind with ⟨hroom, hk⟩ | ⟨-, hk⟩ <;> rw [hk]
  · exact h.withClu ⟨fun _ => by simpa [Config.noticeQueue] using hroom, id⟩ rfl rfl
  · exact h.withClu ⟨id, id⟩ rfl rfl

theorem complete (h : Works k s t) (place : Nat) (result : Result) (params : List Byte) :
    Works k s (t.complete place result params) := by
  rcases t.complete_cases place result params with ⟨g, hg, -, hc⟩ | ⟨-, hc⟩ <;> rw [hc]
  · refine h.withClu ⟨id, id⟩ ?_ rfl
    have hpos := List.length_pos_of_mem hg
    simp only [Clu.load, List.length_append, List.length_singleton,
      List.length_erase_of_mem hg]
    omega
  · exact h

/-! ### Records -/

theorem putRecord (h : Works k s t) {i : Nat} {r : Record} (hr : s.recordsInRange = true → r.inRange = true) :
    Works k s (t.putRecord i r) :=
  h.withStu ⟨Sparse.rising_put, id, id, id, id, id⟩ fun hs => Sparse.all_put (h.records_all hs) (hr hs)

theorem updateRecord (h : Works k s t) {i : Nat} {f : Record → Record}
    (hf : s.recordsInRange = true → ∀ r, t.record? i = some r → r.inRange = true → (f r).inRange = true) :
    Works k s (t.updateRecord i f) := by
  unfold State.updateRecord
  split
  next r hr => exact h.putRecord fun hs => hf hs r hr (State.record_inRange (h.records hs) hr)
  next => exact h

theorem dropRecord (h : Works k s t) (i : Nat) : Works k s (t.dropRecord i) :=
  h.withStu ⟨Sparse.rising_drop, id, id, id, id, id⟩ fun hs => Sparse.all_drop (h.records_all hs)

theorem unlinkNumber (h : Works k s t) (n i : Nat) : Works k s (t.unlinkNumber n i) :=
  h.withStu ⟨id, fun hx => hx.putChain .., id, fun hx => hx.erase .., id, id⟩ h.records_all

theorem unlinkAddress (h : Works k s t) (a i : Nat) : Works k s (t.unlinkAddress a i) :=
  h.withStu ⟨id, id, fun hx => hx.putChain .., id, fun hx => hx.erase .., id⟩ h.records_all

/-- A record is inserted only in a chain with room (R9). -/
theorem linkNumber (h : Works k s t) {n : Nat} (i : Nat)
    (hroom : chainHasRoom (chainAt t.stu.numberIndex (t.stu.numberBucket n)) = true) : Works k s (t.linkNumber n i) :=
  h.withStu ⟨id, fun hx => hx.putChain _ (i :: _), id, fun hx => hx.cons i hroom, id, id⟩ h.records_all

theorem linkAddress (h : Works k s t) {a : Nat} (i : Nat)
    (hroom : chainHasRoom (chainAt t.stu.addressIndex (t.stu.addressBucket a)) = true) :
    Works k s (t.linkAddress a i) :=
  h.withStu ⟨id, id, fun hx => hx.putChain _ (i :: _), id, fun hx => hx.cons i hroom, id⟩ h.records_all

/-! ### Slots -/

theorem putSlot (h : Works k s t) (n : Nat) (v : Slot) : Works k s (t.putSlot n v) :=
  ⟨{ h.toRespects with msu := fun hs => Msu.canonical.putSlot (h.msu hs) n v }, h.load, h.queue, h.waits⟩

theorem updateMessage (h : Works k s t) (n : Nat) (f : Message → Message) : Works k s (t.updateMessage n f) := by
  unfold State.updateMessage
  split
  · exact h.putSlot ..
  · exact h

theorem placeTimed (h : Works k s t) (n : Nat) (p : Place) (d : Tick) : Works k s (t.placeTimed n p d) :=
  (h.updateMessage n _).withAru id

theorem takeOut (h : Works k s t) (n : Nat) (p : Place) : Works k s (t.takeOut n p) := by
  cases p
  case awaiting | held => exact h.withAru id
  all_goals exact h.withTraffic rfl rfl rfl

theorem lowerFree (h : Works k s t) : Works k s t.lowerFree := by
  unfold State.lowerFree
  dsimp only
  split
  · exact (h.withMsu (c := { t.msu with freeCount := t.msu.freeCount - 1, lowWater := true }) rfl).raise _
  · exact h.withMsu rfl

theorem raiseFree (h : Works k s t) : Works k s t.raiseFree := by
  unfold State.raiseFree
  dsimp only
  split
  · exact (h.withMsu (c := { t.msu with freeCount := t.msu.freeCount + 1, lowWater := false }) rfl).raise _
  · exact h.withMsu rfl

end State.Works

end Sys2Proof.Machine
end


section
namespace Sys2Proof.Machine
open Sys2Proof

/-! ## Records in range -/

section
variable {r : Record}

/-- The keys and the home zones of a record in range (R4). -/
def Record.keysInRange (r : Record) : Prop :=
  (1 ≤ r.number ∧ r.number ≤ Config.numberMax) ∧ (1 ≤ r.address ∧ r.address ≤ Config.addressMax) ∧ r.zones ≠ 0

/-- The period counters of a record in range, and the allowance (R4, R62, R68). -/
def Record.countersInRange (r : Record) : Prop :=
  r.charge ≤ Config.unitMax ∧ r.allowance ≤ 65535 ∧ r.used ≤ r.allowance ∧ r.delivered ≤ Config.countMax ∧
    r.chars ≤ Config.unitMax

theorem Record.inRange_iff : r.inRange = true ↔
    r.keysInRange ∧ r.presenceInRange = true ∧ r.planInRange = true ∧ r.countersInRange ∧
      r.periodTag < Config.periodModulus ∧ r.nextTag < 128 ∧ r.live.length ≤ Config.liveLimit := by
  simp only [Record.inRange, Record.keysInRange, Record.countersInRange, Bool.and_eq_true, decide_eq_true_eq, bne_iff_ne]
  tauto

/-- The closing of a period leaves the counters at 0 and the tag current (R160). -/
theorem Record.inRange_closePeriod {period : Nat} (h : r.inRange = true) (hp : period < Config.periodModulus) :
    (r.closePeriod period).inRange = true := by
  obtain ⟨hkeys, hpresence, hplan, ⟨-, hallowance, -⟩, -, htag, hlive⟩ := Record.inRange_iff.mp h
  exact Record.inRange_iff.mpr ⟨hkeys, hpresence, hplan, ⟨Nat.zero_le _, hallowance, Nat.zero_le _, Nat.zero_le _,
    Nat.zero_le _⟩, hp, htag, hlive⟩

/-- A charge that leaves pending leaves the balance at pending or above, taken from it or not (R65 to R67). -/
theorem Record.planInRange_settle (h : r.planInRange = true) (e : Ending) (m : Message) (period : Nat) :
    (r.settle e m period).planInRange = true := by
  have hkept : ∀ r' : Record, r'.plan = r.plan → r'.pending = r.pending - m.charge → r'.planInRange = true := by
    intro r' hplan hpending
    cases hp : r.plan <;> simp only [Record.planInRange, hplan, hp, hpending, Bool.and_eq_true, decide_eq_true_eq] at h ⊢
    · omega
    · exact h
  have hreturned : (({ r with pending := r.pending - m.charge } : Record).returnPage m period).planInRange = true := by
    unfold Record.returnPage
    split <;> exact hkept _ rfl rfl
  have hcharged : ∀ r' : Record, r'.plan = (r.chargeFinal m.charge).plan → r'.pending = r.pending - m.charge →
      r'.planInRange = true := by
    intro r' hplan hpending
    cases hp : r.plan <;> simp only [Record.planInRange, hplan, hp, hpending, Record.chargeFinal, Bool.and_eq_true,
      decide_eq_true_eq] at h ⊢
    · omega
    · exact h
  cases e with
  | delivered => exact hcharged _ rfl rfl
  | cancelled =>
    simp only [Record.settle]
    split
    · exact hcharged _ rfl rfl
    · exact hreturned
  | abandoned => exact hreturned
  | flushed => exact hreturned

theorem Record.countersInRange_settle (h : r.countersInRange) (e : Ending) (m : Message) (period : Nat) :
    (r.settle e m period).countersInRange := by
  obtain ⟨hcharge, hallowance, hused, hdelivered, hchars⟩ := h
  have hreturned : (({ r with pending := r.pending - m.charge } : Record).returnPage m period).countersInRange := by
    unfold Record.returnPage
    split
    · exact ⟨hcharge, hallowance, (Nat.sub_le _ _).trans hused, hdelivered, hchars⟩
    · exact ⟨hcharge, hallowance, hused, hdelivered, hchars⟩
  cases e with
  | delivered => exact ⟨Nat.min_le_right .., hallowance, hused, Nat.min_le_right .., Nat.min_le_right ..⟩
  | cancelled =>
    simp only [Record.settle]
    split
    · exact ⟨Nat.min_le_right .., hallowance, hused, hdelivered, hchars⟩
    · exact hreturned
  | abandoned => exact hreturned
  | flushed => exact hreturned

theorem Record.inRange_settle (h : r.inRange = true) (e : Ending) (m : Message) (period : Nat) :
    (r.settle e m period).inRange = true := by
  obtain ⟨hkeys, hpresence, hplan, hcounters, hperiod, htag, hlive⟩ := Record.inRange_iff.mp h
  have hsame : (r.settle e m period).keysInRange = r.keysInRange ∧
      (r.settle e m period).presenceInRange = r.presenceInRange ∧ (r.settle e m period).periodTag = r.periodTag ∧
      (r.settle e m period).nextTag = r.nextTag ∧ (r.settle e m period).live = r.live := by
    cases e <;> simp only [Record.settle, Record.returnPage] <;> (try split) <;> (try split) <;>
      exact ⟨rfl, rfl, rfl, rfl, rfl⟩
  obtain ⟨h1, h2, h3, h4, h5⟩ := hsame
  exact Record.inRange_iff.mpr ⟨h1 ▸ hkeys, h2 ▸ hpresence, Record.planInRange_settle hplan e m period,
    Record.countersInRange_settle hcounters e m period, h3 ▸ hperiod, h4 ▸ htag, h5 ▸ hlive⟩

theorem Record.inRange_erase (h : r.inRange = true) (n : Nat) :
    ({ r with live := r.live.erase n, held := r.held.erase n } : Record).inRange = true := by
  obtain ⟨hkeys, hpresence, hplan, hcounters, hperiod, htag, hlive⟩ := Record.inRange_iff.mp h
  exact Record.inRange_iff.mpr ⟨hkeys, hpresence, hplan, hcounters, hperiod, htag, List.length_erase_le.trans hlive⟩

/-- A page that passed the credit check, for a record with room in its live list, is reserved in range (R60, R62). -/
theorem Record.inRange_reserve {c n tag : Nat} (h : r.inRange = true) (hcredit : r.creditPasses c = true)
    (hroom : r.live.length < Config.liveLimit) :
    ({ r.reserve c with live := r.live ++ [n], nextTag := (tag + 1) % 128 } : Record).inRange = true := by
  obtain ⟨hkeys, hpresence, hplan, ⟨hcharge, hallowance, hused, hdelivered, hchars⟩, hperiod, -, -⟩ :=
    Record.inRange_iff.mp h
  refine Record.inRange_iff.mpr ⟨hkeys, hpresence, ?_, ⟨hcharge, hallowance, ?_, hdelivered, hchars⟩, hperiod,
    Nat.mod_lt _ (by decide), by simpa using hroom⟩
  · simp only [Record.planInRange, Record.creditPasses, Record.reserve] at hplan hcredit ⊢
    split at hplan <;> simp_all
  · simp only [Record.reserve, Record.withinAllowance]
    by_cases hwithin : r.used < r.allowance
    · simp [hwithin]
    · simpa [hwithin] using hused

theorem Record.inRange_presence {p : Presence} (h : r.inRange = true)
    (hp : ({ r with presence := p } : Record).presenceInRange = true) :
    ({ r with presence := p } : Record).inRange = true := by
  obtain ⟨hkeys, -, hplan, hcounters, hperiod, htag, hlive⟩ := Record.inRange_iff.mp h
  exact Record.inRange_iff.mpr ⟨hkeys, hp, hplan, hcounters, hperiod, htag, hlive⟩

end

end Sys2Proof.Machine
end


section
namespace Sys2Proof.Machine
open Sys2Proof

namespace State.Works
variable {k : Option Once} {s t u : State}

/-! ## The parts of an event -/

/-! ### The extract and the freeing of a record -/

theorem wait (h : Works none s t) (anew : Bool) (w : Waiter) : Works w.once s (t.wait anew w) := by
  refine h.andThen ⟨⟨id, .refl _, id, id, fun _ => .refl _, .refl _, fun _ => .refl _, id, ⟨id, id, id, rfl⟩, .refl _, rfl⟩,
    rfl, rfl, ?_⟩
  have hperm : (t.wait anew w).pdu.waiters.Perm (w :: t.pdu.waiters) := by
    cases anew
    · exact List.perm_append_singleton w t.pdu.waiters
    · exact .refl _
  have honces := hperm.filterMap Waiter.once
  rw [List.filterMap_cons] at honces
  cases hw : w.once with
  | none => rw [hw] at honces; exact .inl honces
  | some o => rw [hw] at honces; exact .inr ⟨o, rfl, honces⟩

theorem writeEntry (h : Works k s t) (e : Entry) : Works k s (t.writeEntry e) := by
  rcases t.writeEntry_cases e with ⟨hroom, hc⟩ | ⟨-, hc⟩ <;> rw [hc]
  · exact h.withPdu ⟨id, id, fun _ => by simpa [Config.extractFifo] using hroom, rfl⟩ rfl
  · exact h

theorem closeRecord (h : Works k s t) {i : Nat} {r : Record} (hr : t.record? i = some r) :
    Works k s (t.closeRecord i r) := by
  have hput : Works k s ((t.writeEntry (r.entry i false)).putRecord i (r.closePeriod t.pdu.period)) :=
    (h.writeEntry (r.entry i false)).putRecord fun hs =>
      Record.inRange_closePeriod (State.record_inRange (h.records hs) hr) (h.period_lt hs)
  have hclosed : t.closeRecord i r = { (t.writeEntry (r.entry i false)).putRecord i (r.closePeriod t.pdu.period) with
      pdu := { (t.writeEntry (r.entry i false)).pdu with
        entries := (t.writeEntry (r.entry i false)).pdu.entries + 1 } } := by
    simp [State.closeRecord]
  rw [hclosed]
  exact hput.withPdu ⟨id, id, id, rfl⟩ rfl

theorem touch {anew : Bool} {i : Nat} (h : Works k s t) (ht : t.touch anew i = some u) : Works k s u := by
  rcases t.touch_cases anew i with ⟨-, hc⟩ | ⟨r, -, -, hc⟩ | ⟨r, hr, -, -, hc⟩ | ⟨r, -, -, -, hc⟩ <;>
    rw [hc] at ht <;> cases ht
  · exact h
  · exact h
  · exact h.closeRecord hr

theorem maybeTouch {b anew : Bool} {i : Nat} (h : Works k s t)
    (ht : (if b then t.touch anew i else some t) = some u) : Works k s u := by
  split at ht
  · exact h.touch ht
  · cases ht; exact h

theorem releaseRecord (h : Works k s t) (i : Nat) (r : Record) : Works k s (t.releaseRecord i r) := by
  refine raise ?_ _
  exact ((h.unlinkAddress r.address i).dropRecord i).withTable rfl rfl rfl rfl

theorem countFreed (h : Works k s t) (holder : Holder) : Works k s (t.countFreed holder) := by
  unfold State.countFreed
  split
  · exact h.withMsu rfl
  · exact h.withMsu rfl
  · exact h

theorem writeClosing {anew : Bool} {i : Nat} {holder : Holder} (h : Works k s t)
    (ht : t.writeClosing anew i holder = some u) : Works k s u := by
  rcases t.writeClosing_cases anew i holder with ⟨-, hc⟩ | ⟨r, -, -, -, hc⟩ | ⟨r, hr, -, -, hc⟩ | ⟨r, -, -, hc⟩ <;>
    rw [hc] at ht <;> cases ht
  · exact h
  · exact ((h.writeEntry _).releaseRecord i r).countFreed holder
  · exact (((h.closeRecord hr).writeEntry _).releaseRecord i _).countFreed holder

theorem beginFreeing (h : Works none s t) (anew : Bool) (i : Nat) (holder : Holder) :
    Works holder.once s (t.beginFreeing anew i holder).1 := by
  have hmarked : Works none s (t.updateRecord i fun r => { r with closing := true }) := h.updateRecord fun _ _ _ => id
  unfold State.beginFreeing
  dsimp only
  split
  next hw => exact (hmarked.writeClosing hw).widen
  next => exact hmarked.wait anew (.closing i holder)

theorem freeOwner (h : Works none s t) (anew : Bool) (i : Nat) (holder : Holder) :
    Works holder.once s (t.freeOwner anew i holder).1 := by
  unfold State.freeOwner
  split
  · exact h.beginFreeing anew i holder
  · exact h.widen

theorem resumeSweep (h : Works k s t) : Works k s t.resumeSweep := by
  rcases t.resumeSweep_cases with ⟨-, -, hc⟩ | ⟨-, hc⟩ <;> rw [hc]
  · exact h.withPdu ⟨id, id, id, rfl⟩ rfl
  · exact h

/-! ### The message store -/

theorem freeSlot (h : Works k s t) (n owner : Nat) : Works k s (t.freeSlot n owner) := by
  refine raiseFree ?_
  exact ((h.updateRecord fun _ r _ hr => Record.inRange_erase hr n).putSlot n _).withMsu rfl

theorem settle (h : Works k s t) (e : Ending) (n : Nat) : Works k s (t.settle e n) := by
  cases hm : t.message? n with
  | none => rwa [State.settle_free hm]
  | some m =>
    rw [State.settle_eq hm]
    exact ((h.takeOut n m.place).updateRecord fun _ r _ hr => Record.inRange_settle hr e m _).freeSlot n m.owner

theorem evictOldest (h : Works k s t) (i : Nat) : Works k s (t.evictOldest i) := by
  unfold State.evictOldest
  split
  next r _ =>
    split
    · split
      · exact h.settle _ _
      · exact h
    · exact h
  next => exact h

theorem hold (h : Works k s t) (n i : Nat) : Works k s (t.hold n i) :=
  (h.updateRecord (f := fun r => { r with held := r.held ++ [n] }) fun _ _ _ => id).placeTimed n _ _

theorem park (h : Works k s t) (n : Nat) : Works k s (t.park n) := by
  cases hm : t.message? n with
  | none => simpa [State.park, hm] using h
  | some m =>
    rcases State.park_cases hm with ⟨-, hp⟩ | ⟨-, hp⟩ <;> rw [hp]
    · exact h.settle _ _
    · exact ((h.takeOut n m.place).evictOldest m.owner).hold n m.owner

/-- A slot is given out for a page that passed the credit check, to a record with room in its live list (R34, R62). -/
theorem allocate (h : Works k s t) {i : Nat} {r : Record} {c : Nat} (hr : t.record? i = some r)
    (hcredit : r.creditPasses c = true) (hroom : r.live.length < Config.liveLimit) (n : Nat) (free : FreeList)
    (src : Source) (p : Priority) (body : List Byte) : Works k s (t.allocate n free i r src p body c) := by
  have hfree : Works k s { t with msu := { t.msu with free := free } } := h.withMsu rfl
  exact (hfree.lowerFree.putSlot n _).putRecord fun hs =>
    Record.inRange_reserve (State.record_inRange (h.records hs) hr) hcredit hroom

theorem enqueue (h : Works k s t) (q : QueueName) (n : Nat) : Works k s (t.enqueue q n) := h.withTraffic rfl rfl rfl

theorem requeue (h : Works k s t) (q : QueueName) (n : Nat) : Works k s (t.requeue q n) := h.withTraffic rfl rfl rfl

/-! ### Takes, moves and the end of an event -/

theorem popQueue (h : Works k s t) (q : QueueName) (n : Nat) (rest : List Nat) : Works k s (t.popQueue q n rest) := by
  refine updateMessage ?_ n _
  exact h.withDsu ⟨fun hd => Dsu.rotationGood_rotate hd q rfl, rfl, id⟩

theorem stage (h : Works k s t) (n : Nat) (m : Message) (r : Record) : Works k s (t.stage n m r) :=
  (h.updateMessage n _).withTraffic rfl rfl rfl

theorem take (h : Works none s t) (anew : Bool) : Works (some .arbiter) s (t.take anew) := by
  rcases t.take_cases anew with ⟨-, ht⟩ | ⟨q, -, -, ht⟩ | ⟨q, n, rest, -, -, ⟨-, ht⟩ | ⟨m, -, ⟨-, ht⟩ | ⟨r, -, hcase⟩⟩⟩
  · rw [ht]; exact h.widen
  · rw [ht]; exact h.widen
  · rw [ht]; exact (h.popQueue q n rest).widen
  · rw [ht]; exact (h.popQueue q n rest).widen
  · rcases hcase with ⟨-, ht⟩ | ⟨-, -, ht⟩ | ⟨-, -, -, ht⟩ | ⟨-, -, v, hv, ht⟩ <;> rw [ht]
    · exact ((h.popQueue q n rest).stage n m r).widen
    · exact ((h.popQueue q n rest).park n).widen
    · exact h.wait anew .arbiter
    · exact ((((h.touch hv).popQueue q n rest).park n).freeOwner anew m.owner (.alone false)).widen

theorem move (h : Works k s t) : Works k s t.move := by
  cases hb : t.dsu.staging with
  | none => rw [State.move, hb]; exact h
  | some b =>
    rw [State.move_eq hb]
    exact (h.updateMessage b.slot _).withTraffic (by simp) (by simp) (by simp)

theorem restoreZones (h : Works k s t) : Works k s t.restoreZones := by
  rcases t.restoreZones_cases with ⟨-, -, hc⟩ | ⟨-, hc⟩ <;> rw [hc]
  · exact (h.withTraffic (c := { t.dsu with outage := false }) rfl rfl rfl).raise _
  · exact h

theorem markOutage (h : Works k s t) : Works k s t.markOutage := by
  rcases t.markOutage_cases with ⟨-, hc⟩ | ⟨-, hc⟩ <;> rw [hc]
  · exact (h.withTraffic (c := { t.dsu with outage := true }) rfl rfl rfl).raise _
  · exact h

theorem completeReset (h : Works k s t) : Works k s t.completeReset := by
  rcases t.completeReset_cases with ⟨-, hc⟩ | ⟨f, -, -, hc⟩ <;> rw [hc]
  · exact h
  · exact (h.withMsu (c := { t.msu with flush := none }) rfl).complete _ _ _

end State.Works

end Sys2Proof.Machine
end


section
namespace Sys2Proof.Machine
open Sys2Proof

/-! ## Events that take no command from the queue -/

/-- From `s` to `t` an event of the part runs, and the command queue stays as it is. -/
structure State.Runs (s t : State) : Prop extends s.Respects t where
  load : s.clu.load ≤ Config.responseFifo → t.clu.load ≤ Config.responseFifo
  queue : t.clu.queue = s.clu.queue
  once : (oncesOf s.pdu.waiters).Nodup → (oncesOf t.pdu.waiters).Nodup

section
variable {s : State} {l : List Waiter} {o : Once}

theorem mem_oncesOf : o ∈ oncesOf l ↔ l.any (fun w => w.once == some o) = true := by
  simp [oncesOf, List.mem_filterMap]

theorem State.lineWaits_once {n : Fin 4} : s.lineWaits n = true ↔ .line n ∈ oncesOf s.pdu.waiters := by
  simp [mem_oncesOf, State.lineWaits, (Waiter.once_eq_iff _).1]

theorem State.arbiterWaits_once : s.arbiterWaits = true ↔ .arbiter ∈ oncesOf s.pdu.waiters := by
  simp [mem_oncesOf, State.arbiterWaits, (Waiter.once_eq_iff _).2.1]

theorem State.completionWaits_once : s.completionWaits = true ↔ .completion ∈ oncesOf s.pdu.waiters := by
  simp [mem_oncesOf, State.completionWaits, (Waiter.once_eq_iff _).2.2]

theorem State.reportWaits_once {l : Link} : s.reportWaits l = true ↔ .report l ∈ oncesOf s.pdu.waiters := by
  rw [mem_oncesOf, State.reportWaits]
  simp only [(Waiter.once_beq _).1] <;> rfl

theorem State.expiryWaits_once : s.expiryWaits = true ↔ .expiry ∈ oncesOf s.pdu.waiters := by
  rw [mem_oncesOf, State.expiryWaits]
  simp only [(Waiter.once_beq _).2.1] <;> rfl

theorem State.walkWaits_once : s.walkWaits = true ↔ .walk ∈ oncesOf s.pdu.waiters := by
  rw [mem_oncesOf, State.walkWaits]
  simp only [(Waiter.once_beq _).2.2] <;> rfl

end

/-- An operation that waits as a kind that does not wait yet is an event. -/
theorem State.Works.runs {k : Option Once} {s t : State} (h : Works k s t)
    (hk : ∀ o, k = some o → o ∉ oncesOf s.pdu.waiters) : s.Runs t := by
  refine ⟨h.toRespects, fun hload => h.load.trans_le hload, h.queue, fun hs => ?_⟩
  rcases h.waits with hperm | ⟨o, ho, hperm⟩
  · exact hperm.nodup_iff.mpr hs
  · exact hperm.nodup_iff.mpr (List.nodup_cons.mpr ⟨hk o ho, hs⟩)

theorem State.Works.quietRuns {s t : State} (h : Works none s t) : s.Runs t := h.runs (by simp)

namespace State.Runs
variable {s t u : State}

theorem refl (s : State) : s.Runs s := ⟨.refl s, id, rfl, id⟩

theorem trans (h : s.Runs t) (g : t.Runs u) : s.Runs u :=
  ⟨h.toRespects.trans g.toRespects, g.load ∘ h.load, g.queue.trans h.queue, g.once ∘ h.once⟩

/-- The takes of an event wait as the arbiter, which does not wait yet (R108, R112). -/
theorem dispatchLoop (s : State) (k : Nat) : s.Runs (Machine.dispatchLoop k s) := by
  induction k generalizing s with
  | zero => exact .refl s
  | succ k ih =>
    unfold Machine.dispatchLoop
    split
    · exact (State.Works.refl none s).move.quietRuns.trans (ih _)
    · split
      next htake =>
        obtain ⟨-, -, -, -, harbiter, -⟩ := s.takeAllowed_iff.mp htake
        refine trans (State.Works.runs ((State.Works.refl none s).take false) ?_) (ih _)
        rintro o ⟨⟩
        rw [← State.arbiterWaits_once, harbiter]
        exact Bool.false_ne_true
      next => exact .refl s

theorem afterTraffic (h : s.Runs t) : s.Runs t.afterTraffic :=
  h.trans ((State.Works.refl none t).completeReset.restoreZones.quietRuns.trans
    ((dispatchLoop _ _).trans (State.Works.refl none _).markOutage.resumeSweep.quietRuns))

end State.Runs

namespace State.Works
variable {k : Option Once} {s t u : State}

/-! ### Frame completion and expiry -/

theorem countFlushed (h : Works k s t) : Works k s t.countFlushed := h.withMsu rfl

theorem advanceCursor (h : Works k s t) : Works k s t.advanceCursor := h.withMsu rfl

theorem completeFrame (h : Works none s t) (anew : Bool) : Works (some .completion) s (t.completeFrame anew) := by
  unfold State.completeFrame
  split
  next => exact h.widen
  next b _ =>
    split
    next => exact (h.withTraffic (c := { t.dsu with sending := none }) rfl rfl rfl).widen
    next m _ =>
      split
      next =>
        unfold State.flushCompletion
        split
        next => exact h.wait anew .completion
        next v hv =>
          exact (((h.touch hv).settle .flushed b.slot).countFlushed.freeOwner anew m.owner (.alone true)).widen
      next =>
        dsimp only
        split
        next e _ =>
          unfold State.settleCompletion
          split
          next => exact h.wait anew .completion
          next v hv =>
            exact ((((h.touch hv).updateMessage _ _).settle e b.slot).freeOwner anew _ (.alone false)).widen
        next =>
          have hsent : Works none s { t with dsu := { t.dsu with sending := none } } := h.withTraffic rfl rfl rfl
          split
          · exact ((hsent.updateMessage b.slot _).requeue _ _).widen
          · exact ((hsent.updateMessage b.slot _).placeTimed _ _ _).widen

theorem expire (h : Works none s t) (anew : Bool) : Works (some .expiry) s (t.expire anew) := by
  unfold State.expire
  split
  next => exact h.widen
  next n _ =>
    split
    next => exact h.widen
    next m _ =>
      split
      next => exact h.widen
      next r _ =>
        split
        next =>
          split
          next => exact h.wait anew .expiry
          next v hv => exact ((h.touch hv).settle .abandoned n).freeOwner anew m.owner .expiry
        next =>
          split
          next =>
            have huntimed : Works none s { t with aru := { t.aru with timed := t.aru.timed.erase n } } := h.withAru id
            exact ((huntimed.updateMessage n _).enqueue .retry n).widen
          next =>
            split
            next =>
              split
              next => exact h.wait anew .expiry
              next v hv => exact ((h.touch hv).park n).freeOwner anew m.owner .expiry
            next => exact (h.park n).widen

/-! ### Reports -/

theorem popReport (h : Works k s t) (l : Link) : Works k s (t.popReport l) := by
  refine h.putReceiver ⟨id, fun hb => ?_⟩ fun hs => ?_
  · simp only [Receiver.bounded, Bool.and_eq_true, decide_eq_true_eq, List.length_tail] at hb ⊢
    omega
  · have hall := (State.recordsInRange_iff.mp (h.records hs)).2.2 l
    rw [List.all_eq_true] at hall ⊢
    exact fun rep hrep => hall rep (List.mem_of_mem_tail hrep)

/-- A report sets the presence of a TWO-WAY record, HERE in a zone of 0 to 15 (R137, R139, R140). -/
theorem setPresence (h : Works k s t) {i : Nat} {p : Presence} {r : Record} (hr : t.record? i = some r)
    (hp : s.recordsInRange = true → ({ r with presence := p } : Record).presenceInRange = true) :
    Works k s (t.setPresence i p) := by
  refine h.updateRecord fun hs r' hr' hrange => ?_
  rw [hr] at hr'
  cases hr'
  exact Record.inRange_presence hrange (hp hs)

theorem takeAck (h : Works none s t) (anew : Bool) (l : Link) {i : Nat} {r : Record} (hr : t.record? i = some r)
    (hkind : r.kind = .twoWay) (tag : Nat) {zone : Nat} (hzone : s.recordsInRange = true → zone ≤ 15) :
    Works (some (.report l)) s (t.takeAck anew l i r tag zone) := by
  have hhere : ∀ r' : Record, r'.kind = .twoWay → s.recordsInRange = true →
      ({ r' with presence := .here zone } : Record).presenceInRange = true := fun r' hk hs => by
    simp [Record.presenceInRange, hk, hzone hs]
  have hset := h.setPresence hr (hhere r hkind)
  unfold State.takeAck
  split
  next => exact (hset.popReport l).widen
  next n m _ =>
    split
    next => exact ((hset.updateMessage n _).popReport l).widen
    next =>
      split
      next => exact h.wait anew (.report l)
      next v hv =>
        have htouched : (t.asTouched r).kind = .twoWay := by
          unfold State.asTouched
          split <;> exact hkind
        have hk := ((((h.touch hv).setPresence (State.touch_record hr hv) (hhere _ htouched)).settle .delivered n).freeOwner
          anew i (.report l))
        split <;> rename_i hw <;> rw [hw] at hk
        · exact hk
        · exact trans hk ((refl none _).popReport l)

theorem takeRegister (h : Works k s t) {i : Nat} {r : Record} (hr : t.record? i = some r) (hkind : r.kind = .twoWay)
    {zone : Nat} (hzone : s.recordsInRange = true → zone ≤ 15) : Works k s (t.takeRegister i r zone) := by
  have released : ∀ (l : List Nat) {v : State}, Works k s v → Works k s (l.foldl State.releaseSlot v) := by
    intro l
    induction l with
    | nil => exact id
    | cons n l ih =>
      intro v hv
      have huntimed : Works k s { v with aru := { v.aru with timed := v.aru.timed.erase n } } := hv.withAru id
      exact ih ((huntimed.updateMessage n _).enqueue .retry n)
  refine released r.held (h.updateRecord fun hs r' hr' hrange => ?_)
  rw [hr] at hr'
  cases hr'
  exact Record.inRange_presence (p := .here zone) hrange (by simp [Record.presenceInRange, hkind, hzone hs])

theorem takeReport (h : Works none s t) (anew : Bool) (l : Link) :
    Works (some (.report l)) s (t.takeReport anew l) := by
  have hpop := (h.popReport l).widen (k := some (.report l))
  unfold State.takeReport
  split
  next => exact h.widen
  next rep rest hfifo =>
    have hrep : s.recordsInRange = true → rep.inRange = true := fun hs => by
      have hall := (State.recordsInRange_iff.mp (h.records hs)).2.2 l
      rw [hfifo, List.all_cons, Bool.and_eq_true] at hall
      exact hall.1
    split
    next =>
      split
      next => exact hpop
      next i _ =>
        split
        next => exact hpop
        next r hr =>
          split
          next => exact hpop
          next hkind =>
            have htwoWay : r.kind = .twoWay := by
              cases hk : r.kind
              · exact absurd hk hkind
              · rfl
            cases rep with
            | ack _ tag zone => exact h.takeAck anew l hr htwoWay tag fun hs => of_decide_eq_true (hrep hs)
            | register _ zone =>
              exact ((h.takeRegister hr htwoWay fun hs => of_decide_eq_true (hrep hs)).popReport l).widen
            | leave =>
              exact ((h.setPresence hr fun _ => by simp [Record.presenceInRange, htwoWay]).popReport l).widen
    next => exact hpop

/-! ### Cancelling and flushing -/

theorem cancelSlot (h : Works k s t) (n : Nat) (m : Message) : Works k s (t.cancelSlot n m) := by
  unfold State.cancelSlot
  split
  · exact h.settle _ _
  · exact h.updateMessage _ _
  · exact h

theorem takeCancel (h : Works none s t) (anew : Bool) (place : Nat) (reference : BitVec 16) :
    Works none s (takeCancel anew place reference t).1 := by
  unfold Machine.takeCancel
  split
  next => exact h
  next =>
    split
    next => exact h
    next n _ =>
      split
      next => exact h
      next m _ =>
        split
        next =>
          split
          next => exact h.wait anew (.command place (.cancel reference))
          next v hv =>
            have hk := ((h.touch hv).cancelSlot n m).freeOwner anew m.owner (.answer place m.settledReply)
            split <;> rename_i hw <;> rw [hw] at hk <;> exact hk
        next => exact h.cancelSlot n m
        next => exact h

theorem flushStep (h : Works none s t) (anew : Bool) : Works (some .walk) s (t.flushStep anew) := by
  unfold State.flushStep
  split
  next f _ =>
    split
    · unfold State.flushSlot
      split
      next => exact h.advanceCursor.widen
      next m _ =>
        split
        next => exact h.advanceCursor.widen
        next =>
          split
          next => exact h.wait anew .walk
          next v hv =>
            have hk := ((h.touch hv).settle .flushed f.cursor).countFlushed.freeOwner anew m.owner .walk
            split <;> rename_i hw <;> rw [hw] at hk
            · exact hk
            · exact trans hk (refl none _).advanceCursor
    · exact h.widen
  next => exact h.widen

/-! ### Acceptance -/

theorem placeAccepted (h : Works k s t) (n : Nat) (p : Priority) (held : Bool) :
    Works k s (t.placeAccepted n p held) := by
  unfold State.placeAccepted
  split
  · exact h.park n
  · exact h.enqueue _ n

/-- What the seven checks leave known of the record that passes them (R91). -/
theorem judge_pass {sub : Submission} {i c : Nat} (hj : t.judge sub = .pass i c) :
    ∃ r, t.record? i = some r ∧ r.live.length < Config.liveLimit ∧ (t.asTouched r).creditPasses c = true := by
  unfold State.judge at hj
  split at hj
  next => cases hj
  next =>
    split at hj
    next => cases hj
    next j _ =>
      split at hj
      next => cases hj
      next r hr =>
        dsimp only at hj
        split_ifs at hj with _ _ hroom _ hcredit
        cases hj
        exact ⟨r, hr, Nat.not_le.mp hroom, hcredit⟩

theorem accept (h : Works none s t) {anew : Bool} {w : Waiter} {src : Source} {sub : Submission} {a : Acceptance}
    (hacc : t.accept anew w src sub = (u, a)) : Works w.once s u := by
  rcases t.accept_cases anew w src sub with ⟨why, figures, -, ha⟩ | ⟨i, c, -, -, ha⟩ |
    ⟨i, c, v, r, n, free, hj, hv, hr, -, ha⟩ | ⟨i, c, v, -, hv, -, ha⟩ <;> rw [ha] at hacc <;> cases hacc
  · exact h.widen
  · exact h.wait anew w
  · obtain ⟨r₀, hr₀, hroom, hcredit⟩ := judge_pass hj
    have htouched : r = t.asTouched r₀ := Option.some.inj (hr.symm.trans (State.touch_record hr₀ hv))
    have hlive : r.live = r₀.live := by
      rw [htouched, State.asTouched]
      split <;> rfl
    exact (((h.touch hv).allocate hr (htouched ▸ hcredit) (hlive ▸ hroom) n free src sub.priority sub.body).placeAccepted
      n sub.priority r.away).widen
  · exact (h.touch hv).widen

theorem takeSubmit (h : Works none s t) (anew : Bool) (place : Nat) (a : SubmitArgs) :
    Works none s (takeSubmit anew place a t).1 := by
  unfold Machine.takeSubmit
  split
  next => exact h
  next p _ =>
    split
    next => exact h
    next =>
      cases hacc : t.accept anew (.command place (.submit a)) .commandLink
        { number := a.number.toNat, priority := p, body := a.body } with
      | mk u outcome =>
        have hu : Works none s u := h.accept hacc
        cases outcome <;> exact hu

end State.Works

end Sys2Proof.Machine
end


section
namespace Sys2Proof.Machine
open Sys2Proof

/-! ### The altered record (R16, R72 to R74) -/

section
variable {r : Record} {a : AlterArgs}

theorem numberInRange_iff {n : BitVec 24} : numberInRange n = true ↔ 1 ≤ n.toNat ∧ n.toNat ≤ Config.numberMax := by
  simp [numberInRange]

theorem addressInRange_iff {n : BitVec 24} : addressInRange n = true ↔ 1 ≤ n.toNat ∧ n.toNat ≤ Config.addressMax := by
  simp [addressInRange]

/-- What a carried field passes. -/
theorem carried_iff {α : Type} {test : α → Bool} {o : Option α} : carried test o = true ↔ ∀ v, o = some v → test v = true := by
  cases o <;> simp [carried]

/-- A new plan carries at most 16,777,215 (R74, R188). -/
theorem planInRange_planOf {code : Byte} {amount : BitVec 24} {p : Plan} {pending : Nat} (h : planOf code amount.toNat = some p)
    (hpending : pending = 0) (hp : r.plan = p) (hr : r.pending = pending) : r.planInRange = true := by
  have hlt := amount.isLt
  unfold planOf at h
  have hmax : amount.toNat ≤ Config.unitMax := Nat.le_of_lt_succ hlt
  split_ifs at h <;> cases h <;> simp [Record.planInRange, hp, hr, hpending, hmax]

/-- The changes of an ALTER that passed its checks leave the record in range: pending is 0 where the plan changes. -/
theorem Record.inRange_alter (h : r.inRange = true) (ha : alterInRange a = true)
    (hpending : a.newPlan.isSome = true → r.pending = 0) : (r.alter a).inRange = true := by
  obtain ⟨⟨hnumber, haddress, hzones⟩, hpresence, hplan, ⟨hcharge, hallowance, hused, hdelivered, hchars⟩, hperiod, htag,
    hlive⟩ := Record.inRange_iff.mp h
  simp only [alterInRange, Bool.and_eq_true, carried_iff, numberInRange_iff, addressInRange_iff, decide_eq_true_eq,
    and_assoc] at ha
  obtain ⟨-, -, hnewNumber, hnewAddress, -, -, hnewZones, -, -⟩ := ha
  rw [Record.alter_eq]
  refine Record.inRange_iff.mpr ⟨⟨?_, ?_, ?_⟩, ?_, ?_, ⟨hcharge, ?_, ?_, hdelivered, hchars⟩, hperiod, htag, hlive⟩
  · cases hn : a.newNumber with
    | none => exact hnumber
    | some v => exact hnewNumber v hn
  · cases hn : a.newAddress with
    | none => exact haddress
    | some v => exact hnewAddress v hn
  · cases hn : a.newZones with
    | none => exact hzones
    | some v => exact hnewZones v hn
  · simp only [Record.presenceInRange]
    by_cases hk : (a.newKind.bind kindOf).getD r.kind = r.kind
    · simp only [if_pos hk]
      rw [hk]
      exact hpresence
    · simp only [if_neg hk]
  · cases hp : a.newPlan.bind fun p => planOf p.1 p.2.toNat with
    | some p =>
      obtain ⟨⟨code, amount⟩, hnew, hplanOf⟩ := Option.bind_eq_some_iff.mp hp
      exact planInRange_planOf hplanOf (hpending (by simp [hnew])) rfl rfl
    | none =>
      cases hc : a.newCeiling with
      | none => exact hplan
      | some c =>
        have hlt := c.isLt
        simp only [Record.planInRange, Option.getD_none, Option.elim_some] at hplan ⊢
        cases hold : r.plan with
        | prepaid b => simpa [hold, Plan.withCeiling] using hplan
        | account b =>
          exact decide_eq_true (Nat.le_of_lt_succ hlt)
  · cases hn : a.newAllowance with
    | none => exact hallowance
    | some v =>
      have hlt := v.isLt
      simp only [Option.elim_some]
      omega
  · cases hn : a.newAllowance with
    | none => exact hused
    | some v => exact Nat.le_max_right ..

end

namespace State.Works
variable {k : Option Once} {s t u : State}

/-! ## The commands -/

/-! ### The subscriber table -/

theorem moveNumber (h : Works k s t) {i old new : Nat} (hroom : old = new ∨ t.numberChainRoom i old new = true) :
    Works k s (t.moveNumber i old new) := by
  unfold State.moveNumber
  split
  next => exact h
  next hne => exact (h.unlinkNumber old i).linkNumber i (hroom.resolve_left hne)

theorem moveAddress (h : Works k s t) {i old new : Nat} (hroom : old = new ∨ t.addressChainRoom i old new = true) :
    Works k s (t.moveAddress i old new) := by
  unfold State.moveAddress
  split
  next => exact h
  next hne => exact (h.unlinkAddress old i).linkAddress i (hroom.resolve_left hne)

theorem alterRecord (h : Works k s t) {i : Nat} {r : Record} {a : AlterArgs} (hr : t.record? i = some r)
    (ha : alterInRange a = true) (hpending : a.newPlan.isSome = true → r.pending = 0)
    (hnumber : ∀ v, a.newNumber = some v → r.number = v.toNat ∨ t.numberChainRoom i r.number v.toNat = true)
    (haddress : ∀ v, a.newAddress = some v → r.address = v.toNat ∨ t.addressChainRoom i r.address v.toNat = true) :
    Works k s (t.alterRecord i r a) := by
  have hnew : r.number = (r.alter a).number ∨ t.numberChainRoom i r.number (r.alter a).number = true := by
    rw [Record.alter_eq]
    cases hn : a.newNumber with
    | none => exact .inl rfl
    | some v => exact hnumber v hn
  have hnewAddress : r.address = (r.alter a).address ∨
      (t.moveNumber i r.number (r.alter a).number).addressChainRoom i r.address (r.alter a).address = true := by
    have hsame : ∀ old new x y, (t.moveNumber i old new).addressChainRoom i x y = t.addressChainRoom i x y := by
      intro old new x y
      unfold State.moveNumber
      split <;> rfl
    rw [hsame, Record.alter_eq]
    cases hn : a.newAddress with
    | none => exact .inl rfl
    | some v => exact haddress v hn
  exact ((h.moveNumber hnew).moveAddress hnewAddress).putRecord fun hs =>
    Record.inRange_alter (State.record_inRange (h.records hs) hr) ha hpending

end State.Works

/-- What checks 4 to 9 of R15 leave known of an ALTER that passes them. -/
theorem State.alterRefusal_none {s : State} {a : AlterArgs} {i : Nat} {r : Record} (h : s.alterRefusal a i r = none) :
    (a.newPlan.isSome = true → r.pending = 0) ∧
    (∀ v, a.newNumber = some v → r.number = v.toNat ∨ s.numberChainRoom i r.number v.toNat = true) ∧
    (∀ v, a.newAddress = some v → r.address = v.toNat ∨ s.addressChainRoom i r.address v.toNat = true) := by
  rw [State.alterRefusal_eq] at h
  split_ifs at h with _ _ hplan _ _ hroom
  refine ⟨fun hp => ?_, fun v hv => ?_, fun v hv => ?_⟩
  · by_contra hne
    exact hplan ⟨hp, hne⟩
  · simp only [hv, Option.any_some, not_or, Bool.and_eq_true, decide_eq_true_eq, Bool.not_eq_true', not_and,
      Bool.not_eq_false] at hroom
    exact or_iff_not_imp_left.mpr fun hne => hroom.1 (Ne.symm hne)
  · simp only [hv, Option.any_some, not_or, Bool.and_eq_true, decide_eq_true_eq, Bool.not_eq_true', not_and,
      Bool.not_eq_false] at hroom
    exact or_iff_not_imp_left.mpr fun hne => hroom.2 (Ne.symm hne)

namespace State.Works
variable {k : Option Once} {s t u : State}

theorem takeAlter (h : Works none s t) (anew : Bool) (place : Nat) (a : AlterArgs) :
    Works none s (takeAlter anew place a t).1 := by
  unfold Machine.takeAlter
  split
  next => exact h
  next =>
    split
    next => exact h
    next hrange =>
      split
      next => exact h
      next i _ =>
        split
        next => exact h
        next r hr =>
          split
          next => exact h
          next =>
            split
            next => exact h
            next hnone =>
              split
              next => exact h.wait anew (.command place (.alter a))
              next v hv =>
                split
                next => exact h.maybeTouch hv
                next r' hr' =>
                  obtain ⟨hpending, hnumber, haddress⟩ := State.alterRefusal_none hnone
                  have hkept : r'.pending = r.pending ∧ r'.number = r.number ∧ r'.address = r.address ∧
                      v.stu.numberIndex = t.stu.numberIndex ∧ v.stu.addressIndex = t.stu.addressIndex ∧
                      v.stu.capacity = t.stu.capacity := by
                    have hframe : v.stu = { t.stu with records := v.stu.records } := by
                      split at hv
                      · obtain ⟨-, -, -, -, -, -, -, -, -, -, -, hstu, -⟩ := State.touch_frame hv
                        exact hstu
                      · cases hv; rfl
                    have hrecord : r' = r ∨ r' = t.asTouched r := by
                      split at hv
                      · exact .inr (Option.some.inj (hr'.symm.trans (State.touch_record hr hv)))
                      · cases hv; exact .inl (Option.some.inj (hr'.symm.trans hr))
                    rw [hframe]
                    refine ⟨?_, ?_, ?_, rfl, rfl, rfl⟩ <;> rcases hrecord with rfl | rfl <;>
                      simp only [State.asTouched] <;> split <;> rfl
                  obtain ⟨h1, h2, h3, h4, h5, h6⟩ := hkept
                  refine (h.maybeTouch hv).alterRecord hr' (Bool.eq_true_of_not_eq_false hrange) (by rwa [h1]) ?_ ?_
                  · simpa only [State.numberChainRoom, State.unlinkNumber, Stu.numberBucket, Stu.buckets, h2, h4, h6]
                      using hnumber
                  · simpa only [State.addressChainRoom, State.unlinkAddress, Stu.addressBucket, Stu.buckets, h3, h5, h6]
                      using haddress

theorem takeSetState (h : Works k s t) (st : RecordState) (number : BitVec 24) :
    Works k s (takeSetState st number t).1 := by
  unfold Machine.takeSetState
  split
  next => exact h
  next =>
    split
    next => exact h
    next => exact h.updateRecord fun _ _ _ => id

/-- The balance an adjustment gives stays between pending and 16,777,215 (R70). -/
theorem takeAdjustBalance (h : Works none s t) (anew : Bool) (place : Nat) (number : BitVec 24) (amount : BitVec 32) :
    Works none s (takeAdjustBalance anew place number amount t).1 := by
  unfold Machine.takeAdjustBalance
  split
  next => exact h
  next =>
    split
    next => exact h
    next =>
      split
      next => exact h
      next i _ =>
        split
        next => exact h
        next r hr =>
          split
          next => exact h
          next balance hplan =>
            split
            next => exact h.wait anew (.command place (.adjust number amount))
            next v hv =>
              refine (h.touch hv).updateRecord fun hs r' hr' hrange => ?_
              have htouched : r' = t.asTouched r := Option.some.inj (hr'.symm.trans (State.touch_record hr hv))
              have hpending : r'.pending = r.pending := by
                rw [htouched, State.asTouched]
                split <;> rfl
              obtain ⟨hkeys, hpresence, -, hcounters, hperiod, htag, hlive⟩ := Record.inRange_iff.mp hrange
              refine Record.inRange_iff.mpr ⟨hkeys, hpresence, ?_, hcounters, hperiod, htag, hlive⟩
              have hold := (Record.inRange_iff.mp (State.record_inRange (h.records hs) hr)).2.2.1
              simp only [Record.planInRange, hplan, Bool.and_eq_true, decide_eq_true_eq] at hold
              simp only [Record.planInRange, hpending, Bool.and_eq_true, decide_eq_true_eq]
              rw [adjustedBalance]
              omega

theorem purge (h : Works k s t) (l : List Nat) : Works k s (t.purge l) := by
  induction l generalizing t with
  | nil => exact h
  | cons n l ih =>
    rw [State.purge_cons]
    cases t.message? n with
    | none => exact ih h
    | some m => exact ih (h.cancelSlot n m)

theorem takeRetire (h : Works none s t) (anew : Bool) (place : Nat) (number : BitVec 24) (mode : Byte) :
    Works none s (takeRetire anew place number mode t).1 := by
  unfold Machine.takeRetire
  split
  next => exact h
  next =>
    split
    next => exact h
    next purge _ =>
      split
      next => exact h
      next i _ =>
        split
        next => exact h
        next r _ =>
          dsimp only
          split
          next => exact h.wait anew (.command place (.retire number mode))
          next v hv =>
            have hretired : Works none s (v.retireRecord i r) :=
              ((h.maybeTouch hv).unlinkNumber r.number i).updateRecord fun _ _ _ => id
            generalize hu : (if purge = true then (v.retireRecord i r).purge r.live else v.retireRecord i r) = u
            have hpurged : Works none s u := by
              rw [← hu]
              split
              · exact hretired.purge _
              · exact hretired
            split
            next =>
              have hk := hpurged.beginFreeing anew i
                (.answer place (retireReply i (if purge = true then (t.purgeable r).length else 0) true))
              split <;> rename_i hw <;> rw [hw] at hk <;> exact hk
            next => exact hpurged

theorem takeAdd (h : Works k s t) (a : AddArgs) : Works k s (takeAdd a t).1 := by
  unfold Machine.takeAdd
  split
  next => exact h
  next =>
    split
    next cls kind plan _ _ hplan =>
      split_ifs
      next => exact h
      next => exact h
      next => exact h
      next => exact h
      next hfields _ _ hroom =>
        split
        next => exact h
        next i free _ =>
          simp only [not_or, Bool.not_eq_false] at hfields hroom
          obtain ⟨hnumber, haddress, hzones⟩ := hfields
          have hfree : Works k s { t with stu := { t.stu with free := free, freeCount := t.stu.freeCount - 1 } } :=
            h.withTable rfl rfl rfl rfl
          refine (((hfree.putRecord fun hs => ?_).linkNumber i hroom.1).linkAddress i hroom.2)
          exact Record.inRange_iff.mpr ⟨⟨numberInRange_iff.mp hnumber, addressInRange_iff.mp haddress, hzones⟩, rfl,
            planInRange_planOf hplan rfl rfl rfl, ⟨Nat.zero_le _, Nat.le_of_lt_succ a.allowance.isLt, Nat.zero_le _,
            Nat.zero_le _, Nat.zero_le _⟩, h.period_lt hs, Nat.zero_lt_succ _, Nat.zero_le _⟩
    next => exact h

/-- A table with no record and nothing in its indexes (R11, R12). -/
theorem emptyTable (h : Works k s t) {c : Stu} (hrecords : c.records = []) (hnumbers : c.numberIndex = [])
    (haddresses : c.addressIndex = []) (hcapacity : t.stu.capacity ∈ [0, 8192, 16384, 32768, 65536] →
      c.capacity ∈ [0, 8192, 16384, 32768, 65536]) : Works k s { t with stu := c } := by
  refine h.withStu ⟨?_, ?_, ?_, ?_, ?_, hcapacity⟩ ?_
  · rw [hrecords]; exact fun _ => rfl
  · rw [hnumbers]; exact fun _ => ⟨rfl, rfl⟩
  · rw [haddresses]; exact fun _ => ⟨rfl, rfl⟩
  · rw [hnumbers]; exact fun _ => rfl
  · rw [haddresses]; exact fun _ => rfl
  · rw [hrecords]; exact fun _ => rfl

theorem takeFormat (h : Works k s t) (code : Byte) (place : Nat) : Works k s (takeFormat code place t).1 := by
  unfold Machine.takeFormat
  split
  next => exact h
  next capacity hcode =>
    split_ifs
    · exact h
    · exact h
    · refine h.emptyTable rfl rfl rfl fun _ => ?_
      unfold capacityOf at hcode
      split_ifs at hcode <;> cases hcode <;> simp

/-- With the slots FREE and their reuse counts 0 as well (R12, R33). -/
theorem emptyStore (h : Works k s t) {c : Stu} {d : Msu} (hrecords : c.records = []) (hnumbers : c.numberIndex = [])
    (haddresses : c.addressIndex = []) (hcapacity : c.capacity = t.stu.capacity) (hslots : d.slots = []) :
    Works k s { t with stu := c, msu := d } := by
  have hempty := h.emptyTable hrecords hnumbers haddresses (by rw [hcapacity]; exact id)
  exact ⟨{ hempty.toRespects with msu := fun _ => by rw [Msu.canonical, hslots]; exact ⟨rfl, rfl⟩ }, hempty.load,
    hempty.queue, hempty.waits⟩

theorem completeFormat (h : Works k s t) : Works k s t.completeFormat := by
  unfold State.completeFormat
  dsimp only
  split
  · refine complete ?_ _ _ _
    exact h.emptyStore rfl rfl rfl rfl rfl
  · exact h.emptyStore rfl rfl rfl rfl rfl

end State.Works

end Sys2Proof.Machine
end


section
namespace Sys2Proof.Machine
open Sys2Proof

/-! ### What a line may become -/

theorem markGap_length (f : List RxChar) : (markGap f).length = f.length := by
  fun_induction markGap f <;> simp_all

section
variable {l : Line}

theorem Line.bounded_iff : l.bounded = true ↔ l.fifo.length ≤ Config.lineFifo ∧ l.breakRun < 3 := by
  simp [Line.bounded]

theorem Line.inRange_iff : l.inRange = true ↔
    (l.n ≤ 4095 ∧ l.e ≤ 1 ∧ (l.stop = 1 ∨ l.stop = 2) ∧ 2 ≤ l.wait ∧ l.wait ≤ 25) ∧
      (l.mode = .polled → stationsGood l.stations = true ∧ l.current < l.stations.length) ∧
      (l.mode = .direct → l.stations = [] ∧ l.current = 0) := by
  cases hm : l.mode <;> simp [Line.inRange, hm, and_assoc]

namespace Line.Keeps

/-- A change that leaves the settings, the station and the break run, and does not lengthen the FIFO. -/
theorem congr {l' : Line} (hsettings : l'.inRange = l.inRange) (hfifo : l'.fifo.length ≤ l.fifo.length)
    (hrun : l'.breakRun ≤ l.breakRun) : l.Keeps l' := by
  refine ⟨by rw [hsettings]; exact id, fun h => ?_⟩
  obtain ⟨hlen, hbreak⟩ := Line.bounded_iff.mp h
  exact Line.bounded_iff.mpr ⟨hfifo.trans hlen, hrun.trans_lt hbreak⟩

theorem drive (l : Line) : l.Keeps l.drive := congr rfl le_rfl le_rfl

theorem moveOn (l : Line) : l.Keeps l.moveOn := by
  unfold Line.moveOn
  split
  next hm =>
    refine ⟨fun h => ?_, id⟩
    obtain ⟨hsettings, hpolled, -⟩ := Line.inRange_iff.mp h
    obtain ⟨hstations, hcurrent⟩ := hpolled hm
    refine Line.inRange_iff.mpr ⟨hsettings, fun _ => ⟨hstations, Nat.mod_lt _ (Nat.zero_lt_of_lt hcurrent)⟩, fun hd => ?_⟩
    have hd' : l.mode = .direct := hd
    rw [hm] at hd'
    cases hd'
  next => exact .refl l

theorem disable (l : Line) : l.Keeps l.disable := congr rfl (Nat.zero_le _) le_rfl

theorem endExchange (l : Line) : l.Keeps l.endExchange := by
  unfold Line.endExchange
  split
  · exact disable l
  · exact (congr rfl le_rfl le_rfl : l.Keeps { l.clearExchange with state := .idle }).trans (moveOn _)

theorem sendReply (l : Line) (chars : List Byte) : l.Keeps (l.sendReply chars) := congr rfl le_rfl le_rfl

theorem beginFrame (l : Line) : l.Keeps l.beginFrame := congr rfl le_rfl le_rfl

theorem endFrame (l : Line) (f : Frame) (c : RxChar) : l.Keeps (l.endFrame f c) := by
  unfold Line.endFrame
  split
  · split
    · exact sendReply ..
    · exact congr rfl le_rfl le_rfl
  · exact sendReply ..

theorem takeIdle (l : Line) (c : RxChar) : l.Keeps (l.takeIdle c) := by
  unfold Line.takeIdle
  split_ifs
  · exact beginFrame l
  · exact moveOn l
  · exact .refl l

theorem takeAssembling (l : Line) (f : Frame) (c : RxChar) : l.Keeps (l.takeAssembling f c) := by
  unfold Line.takeAssembling
  dsimp only
  split_ifs
  · exact endFrame ..
  · exact beginFrame l
  · exact sendReply ..
  · exact congr rfl le_rfl le_rfl

theorem applyGap (l : Line) (gap : Bool) : l.Keeps (l.applyGap gap) := by
  unfold Line.applyGap
  split
  · exact congr rfl le_rfl le_rfl
  · exact .refl l

theorem takeCharacter (l : Line) : l.Keeps l.takeCharacter := by
  unfold Line.takeCharacter
  split
  next => exact .refl l
  next c rest hfifo =>
    have hrest : l.Keeps { l with fifo := rest } := congr rfl (by rw [hfifo]; exact Nat.le_succ _) le_rfl
    dsimp only
    split
    · exact hrest.trans ((takeIdle _ c).trans (applyGap _ _))
    · exact hrest.trans ((takeAssembling _ _ c).trans (applyGap _ _))
    · exact hrest

theorem trafficReset (l : Line) : l.Keeps l.trafficReset := by
  unfold Line.trafficReset
  split
  · exact (endExchange l).trans (drive _)
  · exact .refl l

theorem countTick (l : Line) : l.Keeps l.countTick := congr rfl le_rfl le_rfl

/-- A good character on a DOWN line is the first of its FIFO (R84). -/
theorem recover (l : Line) (data : Byte) : l.Keeps (l.recover data) := by
  refine Line.Keeps.trans (b := { l with
    state := .idle, fifo := [{ data, bad := false, gap := false }], breakRun := 0 }) ⟨id, fun _ => rfl⟩ (moveOn _)

theorem goDown (l : Line) : l.Keeps l.goDown := by
  unfold Line.goDown
  split
  · exact (disable l).trans (congr rfl le_rfl (Nat.zero_le _))
  · exact congr rfl (Nat.zero_le _) (Nat.zero_le _)

theorem enable (l : Line) : l.Keeps l.enable := by
  have hstart : l.Keeps { l with state := .idle, breakRun := 0, fifo := [], current := 0 } := by
    refine ⟨fun h => ?_, fun _ => rfl⟩
    obtain ⟨hsettings, hpolled, hdirect⟩ := Line.inRange_iff.mp h
    refine Line.inRange_iff.mpr ⟨hsettings, fun hm => ?_, fun hm => ⟨(hdirect hm).1, rfl⟩⟩
    obtain ⟨hstations, hcurrent⟩ := hpolled hm
    exact ⟨hstations, Nat.zero_lt_of_lt hcurrent⟩
  unfold Line.enable
  dsimp only
  split
  · exact hstart.trans (congr rfl le_rfl le_rfl)
  · exact hstart

/-- The settings that SET LINE gives are in range (R98). -/
theorem lineSettings {a : LineArgs} {l' : Line} (h : Machine.lineSettings a l = some l') : l.Keeps l' := by
  unfold Machine.lineSettings at h
  split at h
  next mode parity _ _ =>
    dsimp only at h
    split at h
    next => cases h
    next hrange =>
      cases h
      push Not at hrange
      obtain ⟨hn, he, hstop, hstop', hwait, hwait', hstations⟩ := hrange
      cases mode with
      | polled =>
        refine ⟨fun _ => Line.inRange_iff.mpr ⟨⟨hn, he, ?_, hwait, hwait'⟩, fun _ => ⟨?_, ?_⟩, nofun⟩, id⟩
        · simp only [reduceIte]; omega
        · simpa using hstations rfl
        · have hgood : stationsGood (a.stations.map fun b => b.toNat) = true := by simpa using hstations rfl
          simp only [stationsGood, Bool.and_eq_true, decide_eq_true_eq] at hgood
          exact hgood.1.1.1
      | direct =>
        refine ⟨fun h => ?_, id⟩
        obtain ⟨⟨-, -, -, hw, hw'⟩, -⟩ := Line.inRange_iff.mp h
        refine Line.inRange_iff.mpr ⟨⟨hn, he, ?_, hw, hw'⟩, nofun, fun _ => ⟨rfl, rfl⟩⟩
        simp only [reduceCtorEq, reduceIte]; omega
  next => cases h

theorem receive_length (h : l.fifo.length ≤ Config.lineFifo) (data : Byte) (bad : Bool) :
    (l.receive data bad).fifo.length ≤ Config.lineFifo := by
  unfold Line.receive
  split
  · simpa using Nat.succ_le_of_lt ‹_›
  · exact (markGap_length l.fifo).trans_le h

theorem received_inRange (data : Byte) (mark parity stop : Bool) :
    (l.received data mark parity stop).inRange = l.inRange := by
  unfold Line.received Line.receive; split <;> rfl

/-- A character received finds room in the FIFO, or is lost; the line stays up before the third break (R81 to R83). -/
theorem received (data : Byte) (mark parity stop : Bool) (hrun : l.runAfter data stop < 3) :
    l.Keeps (l.received data mark parity stop) := by
  refine ⟨by rw [received_inRange]; exact id, fun h => Line.bounded_iff.mpr ⟨?_, hrun⟩⟩
  exact receive_length (Line.bounded_iff.mp h).1 data _

/-- At the third break the line goes DOWN with its FIFO and its break run empty (R83). -/
theorem received_goDown (data : Byte) (mark parity stop : Bool) :
    l.Keeps (l.received data mark parity stop).drive.goDown := by
  have hdown := goDown (l.received data mark parity stop).drive
  refine ⟨fun h => hdown.inRange (by rw [← received_inRange data mark parity stop] at h; exact h), fun _ => ?_⟩
  unfold Line.goDown
  split <;> rfl

end Line.Keeps

end

end Sys2Proof.Machine
end


section
namespace Sys2Proof.Machine
open Sys2Proof

namespace State.Works
variable {k : Option Once} {s t u : State}

/-! ### The settings -/

theorem takeSetTariff (h : Works k s t) (a : TariffArgs) : Works k s (takeSetTariff a t).1 := by
  have hrow : ∀ (base : BitVec 16) (free : Byte) (rate : BitVec 16), (clampRow base free rate).inRange = true := by
    intro base free rate
    have hbase := base.isLt
    simp only [TariffRow.inRange, Bool.and_eq_true, decide_eq_true_eq]
    exact ⟨⟨Nat.le_of_lt_succ hbase, Nat.min_le_right ..⟩, Nat.min_le_right ..⟩
  have hparts : ∀ c : Chu, c.inRange = true ↔ c.tone.inRange = true ∧ c.numeric.inRange = true ∧ c.alpha.inRange = true ∧
      8 ≤ c.mu ∧ c.mu ≤ 32 ∧ c.md ≤ 8 := fun c => by simp [Chu.inRange, and_assoc]
  cases a with
  | tone =>
    refine h.withChu fun hc => (hparts _).mpr ⟨hrow .., ?_⟩
    exact ((hparts _).mp hc).2
  | numeric =>
    refine h.withChu fun hc => (hparts _).mpr ?_
    obtain ⟨htone, -, halpha⟩ := (hparts _).mp hc
    exact ⟨htone, hrow .., halpha⟩
  | alpha =>
    refine h.withChu fun hc => (hparts _).mpr ?_
    obtain ⟨htone, hnumeric, -, hmu⟩ := (hparts _).mp hc
    exact ⟨htone, hnumeric, hrow .., hmu⟩
  | multipliers mu md =>
    refine h.withChu fun hc => (hparts _).mpr ?_
    obtain ⟨htone, hnumeric, halpha, -⟩ := (hparts _).mp hc
    exact ⟨htone, hnumeric, halpha, Nat.le_max_left .., Nat.max_le.mpr ⟨by decide, Nat.min_le_right ..⟩,
      Nat.min_le_right ..⟩
  | other => exact h

theorem takeSetOverride (h : Works k s t) (zones : ZoneSet) (v : Byte) : Works k s (takeSetOverride zones v t).1 := by
  unfold Machine.takeSetOverride
  split
  · exact h
  · exact h.withDsu ⟨id, by simp [setOverrides], id⟩

theorem takeSetTransmitter (h : Works k s t) (d : Byte) : Works k s (takeSetTransmitter d t).1 :=
  h.withDsu ⟨id, rfl, fun _ => Nat.le_of_lt_succ d.isLt⟩

theorem takeHoldDispatch (h : Works k s t) (v : Byte) : Works k s (takeHoldDispatch v t).1 := by
  unfold Machine.takeHoldDispatch
  split
  · exact h
  · exact h.withTraffic rfl rfl rfl

theorem takeSetArbiter (h : Works k s t) (v : Byte) : Works k s (takeSetArbiter v t).1 := by
  unfold Machine.takeSetArbiter
  split
  · exact h
  · exact h.withTraffic rfl rfl rfl

theorem takeSetRetry (h : Works k s t) (w0 : BitVec 16) (aMax : Byte) (hold : BitVec 16) :
    Works k s (takeSetRetry w0 aMax hold t).1 := by
  refine h.withAru fun _ => ?_
  have hlt := hold.isLt
  simp only [Aru.inRange]
  omega

theorem takeSetTimebase (h : Works k s t) (p : BitVec 16) (e : Byte) : Works k s (takeSetTimebase p e t).1 := by
  unfold Machine.takeSetTimebase
  split_ifs with hbad
  · exact h
  · refine h.withPdu ⟨fun ⟨_, _, hrest⟩ => ?_, id, id, rfl⟩ rfl
    rw [not_or, ← BitVec.toNat_inj] at hbad
    have hlt := p.isLt
    obtain ⟨hp, he⟩ := hbad
    exact ⟨⟨Nat.one_le_iff_ne_zero.mpr hp, Nat.le_of_lt_succ hlt⟩, Nat.not_lt.mp he, hrest⟩

theorem takeSetClock (h : Works k s t) (m : BitVec 24) : Works k s (takeSetClock m t).1 :=
  h.withPdu ⟨fun ⟨hp, he, _, _, hclose⟩ => ⟨hp, he, (by decide : 0 < Config.minuteTicks), m.isLt, hclose⟩, id, id, rfl⟩ rfl

theorem takeSetClose (h : Works k s t) (m : BitVec 24) (v : Byte) : Works k s (takeSetClose m v t).1 := by
  unfold Machine.takeSetClose
  split
  · exact h
  · exact h.withPdu ⟨fun ⟨hp, he, htick, hminute, _⟩ => ⟨hp, he, htick, hminute, m.isLt⟩, id, id, rfl⟩ rfl

/-! ### The Period Unit -/

theorem startClose (h : Works k s t) (c : Cause) : Works k s (t.startClose c) := by
  refine raise ?_ _
  exact h.withPdu ⟨id, fun _ => Nat.mod_lt _ (by decide), id, rfl⟩ rfl

theorem takeClosePeriod (h : Works k s t) : Works k s (takeClosePeriod t).1 := by
  unfold Machine.takeClosePeriod
  split_ifs
  · exact h
  · exact h.startClose _

theorem takeReadExtract (h : Works k s t) (c : Byte) : Works k s (takeReadExtract c t).1 := by
  unfold Machine.takeReadExtract
  split_ifs
  · exact h
  · refine resumeSweep ?_
    exact h.withPdu ⟨id, id, fun hlen => (List.drop_sublist ..).length_le.trans hlen, rfl⟩ rfl

theorem advanceMinute (h : Works k s t) : Works k s t.advanceMinute := by
  have hminute : Works k s { t with pdu := { t.pdu with
      tickMinute := 0, minute := (t.pdu.minute + 1) % Config.minuteModulus } } :=
    h.withPdu ⟨fun ⟨hp, he, _, _, hclose⟩ => ⟨hp, he, (by decide : 0 < Config.minuteTicks), Nat.mod_lt _ (by decide),
      hclose⟩, id, id, rfl⟩ rfl
  unfold State.advanceMinute
  dsimp only
  split_ifs
  · exact hminute.raise _
  · exact hminute.startClose _
  · exact hminute

theorem sweepVisit (h : Works k s t) : Works k s t.sweepVisit := by
  have hadvance : ∀ {v : State}, Works k s v → Works k s v.advanceSweep := fun hv =>
    hv.withPdu ⟨id, id, id, rfl⟩ rfl
  unfold State.sweepVisit
  split
  · exact h.withPdu ⟨id, id, id, rfl⟩ rfl
  · unfold State.visit
    split_ifs
    · refine raise ?_ _
      exact h.withPdu ⟨id, id, id, rfl⟩ rfl
    · exact hadvance h
    · split
      next => exact hadvance h
      next r hr =>
        split_ifs
        · exact hadvance h
        · exact hadvance (h.closeRecord hr)

/-! ### The return links -/

theorem reports_inRange (h : Works k s t) (hs : s.recordsInRange = true) (l : Link) :
    (t.receiver l).fifo.all Report.inRange = true :=
  (State.recordsInRange_iff.mp (h.records hs)).2.2 l

theorem takeSetReturnLink (h : Works k s t) (a : LinkArgs) : Works k s (takeSetReturnLink a t).1 := by
  unfold Machine.takeSetReturnLink
  split
  · split_ifs with hbad
    · exact h
    · exact h
    · rw [not_or] at hbad
      exact h.putReceiver ⟨fun _ => ⟨Nat.not_lt.mp hbad.1, Nat.not_lt.mp hbad.2⟩, id⟩ fun hs => h.reports_inRange hs _
  · exact h

theorem takeEnableReturnLink (h : Works k s t) (link : Byte) : Works k s (takeEnableReturnLink link t).1 := by
  unfold Machine.takeEnableReturnLink
  split
  next => exact h
  next l _ =>
    dsimp only
    split_ifs
    · exact h
    · exact h
    · refine h.putReceiver ⟨id, fun hb => ?_⟩ fun hs => h.reports_inRange hs l
      simp only [Receiver.bounded, Bool.and_eq_true, decide_eq_true_eq] at hb ⊢
      exact ⟨⟨hb.1.1, Nat.zero_le _⟩, Nat.zero_le _⟩

/-- A report that is discarded leaves the FIFO and the counts (R131, R134). -/
theorem Receiver.bounded_clear {r : Receiver} (h : r.bounded = true) (rejected : Nat) (st : LinkState)
    (hr : rejected ≤ Config.countMax) :
    ({ r.clearAssembly with state := st, rejected := rejected } : Receiver).bounded = true := by
  simp only [Receiver.bounded, Bool.and_eq_true, decide_eq_true_eq] at h ⊢
  exact ⟨⟨⟨h.1.1.1, Nat.zero_le _⟩, h.1.2⟩, hr⟩

theorem takeDisableReturnLink (h : Works k s t) (link : Byte) : Works k s (takeDisableReturnLink link t).1 := by
  unfold Machine.takeDisableReturnLink
  split
  next => exact h
  next l _ =>
    dsimp only
    split_ifs
    · exact h
    · refine h.putReceiver ⟨id, fun hb => ?_⟩ fun hs => h.reports_inRange hs l
      simp only [Receiver.bounded, Bool.and_eq_true, decide_eq_true_eq] at hb ⊢
      exact ⟨⟨⟨hb.1.1.1, Nat.zero_le _⟩, hb.1.2⟩, hb.2⟩

theorem offerReport (h : Works k s t) (l : Link) {rep : Report} (hrep : rep.inRange = true) :
    Works k s (t.offerReport l rep) := by
  unfold State.offerReport
  dsimp only
  split
  next hroom =>
    refine h.putReceiver ⟨id, fun hb => ?_⟩ fun hs => ?_
    · simp only [Receiver.bounded, Bool.and_eq_true, decide_eq_true_eq, List.length_append, List.length_singleton] at hb ⊢
      exact ⟨⟨⟨hroom, hb.1.1.2⟩, hb.1.2⟩, hb.2⟩
    · rw [List.all_append, h.reports_inRange hs l]
      simp [hrep]
  next =>
    have hdropped : Works k s (t.putReceiver l { t.receiver l with
        dropped := bump (t.receiver l).dropped, episode := true }) := by
      refine h.putReceiver ⟨id, fun hb => ?_⟩ fun hs => h.reports_inRange hs l
      simp only [Receiver.bounded, Bool.and_eq_true, decide_eq_true_eq] at hb ⊢
      exact ⟨⟨hb.1.1, Nat.min_le_right ..⟩, hb.2⟩
    split
    · exact hdropped
    · exact hdropped.raise _

theorem reportOf_inRange {chars : List Byte} {rep : Report} (h : reportOf chars = some rep) : rep.inRange = true := by
  unfold reportOf at h
  split at h
  · dsimp only at h
    split_ifs at h with hbad
    all_goals
      cases h
      simp only [not_or, not_lt] at hbad
      exact decide_eq_true hbad.2.2
  · cases h

theorem returnCharacter (h : Works k s t) (l : Link) (data : Byte) (bad : Bool) :
    Works k s (t.returnCharacter l data bad) := by
  have hreports : s.recordsInRange = true → (t.receiver l).fifo.all Report.inRange = true := fun hs =>
    h.reports_inRange hs l
  unfold State.returnCharacter
  dsimp only
  split
  next => exact h
  next =>
    split
    · refine h.putReceiver ⟨id, fun hb => ?_⟩ hreports
      simp only [Receiver.bounded, Bool.and_eq_true, decide_eq_true_eq] at hb ⊢
      exact ⟨⟨⟨hb.1.1.1, by simp⟩, hb.1.2⟩, hb.2⟩
    · exact h
  next =>
    split
    next =>
      unfold State.endReport
      dsimp only
      split
      next hrep _ =>
        refine offerReport ?_ l (reportOf_inRange hrep)
        refine h.putReceiver ⟨id, fun hb => ?_⟩ hreports
        simp only [Receiver.bounded, Bool.and_eq_true, decide_eq_true_eq] at hb ⊢
        exact ⟨⟨⟨hb.1.1.1, Nat.zero_le _⟩, hb.1.2⟩, hb.2⟩
      next =>
        exact h.putReceiver ⟨id, fun hb => Receiver.bounded_clear hb _ _ (Nat.min_le_right ..)⟩ hreports
    next hlen =>
      refine h.putReceiver ⟨id, fun hb => ?_⟩ hreports
      simp only [Receiver.bounded, Bool.and_eq_true, decide_eq_true_eq] at hb ⊢
      exact ⟨⟨⟨hb.1.1.1, Nat.le_of_lt_succ (Nat.not_le.mp hlen)⟩, hb.1.2⟩, hb.2⟩

theorem timeOutReport (h : Works k s t) (l : Link) : Works k s (t.timeOutReport l) :=
  h.putReceiver ⟨id, fun hb => Receiver.bounded_clear hb _ _ (Nat.min_le_right ..)⟩ fun hs => h.reports_inRange hs l

/-! ### The intake lines -/

theorem setLine (h : Works k s t) {n : Fin 4} {l : Line} (hl : (t.line n).Keeps l) : Works k s (t.putLine n l) :=
  h.putLine (hl.trans (.drive l))

theorem takeSetLine (h : Works k s t) (a : LineArgs) : Works k s (takeSetLine a t).1 := by
  unfold Machine.takeSetLine
  split
  next => exact h
  next n _ =>
    split
    next => exact h
    next l hl =>
      split
      · exact h
      · exact h.setLine (.lineSettings hl)

theorem takeEnableLine (h : Works k s t) (line : Byte) : Works k s (takeEnableLine line t).1 := by
  unfold Machine.takeEnableLine
  split
  next => exact h
  next n _ =>
    split
    · exact h
    · dsimp only
      split
      · exact h.setLine (.enable _)
      · exact h.setLine (.congr rfl le_rfl le_rfl)

theorem takeDisableLine (h : Works k s t) (line : Byte) : Works k s (takeDisableLine line t).1 := by
  unfold Machine.takeDisableLine
  split
  next => exact h
  next n _ =>
    dsimp only
    split
    · exact h
    · exact h.setLine (.disable _)
    · exact h.setLine (.disable _)
    · exact h.setLine (.congr rfl le_rfl le_rfl)

theorem takeTrafficReset (h : Works k s t) (place : Nat) : Works k s (takeTrafficReset place t).1 := by
  unfold Machine.takeTrafficReset
  split_ifs
  · exact h
  · exact h
  · refine ⟨⟨h.records, h.stu, h.msu, h.chu, fun n => (h.line n).trans ?_, h.dsu, h.receiver, h.aru, h.pdu, h.clu,
      h.pending⟩, h.load, h.queue, h.waits⟩
    rw [State.line, State.line, Four.get_map]
    exact .trafficReset _

theorem acceptLine (h : Works none s t) (anew : Bool) (n : Fin 4) : Works (some (.line n)) s (t.acceptLine anew n) := by
  unfold State.acceptLine
  split
  next => exact h.widen
  next sub _ =>
    cases hacc : t.accept anew (.line n) (.line n) sub with
    | mk u a =>
      have hu : Works (some (.line n)) s u := h.accept hacc
      cases a with
      | waits => exact hu
      | refused => exact hu.setLine (.sendReply ..)
      | made => exact hu.setLine (.sendReply ..)

/-! ### Commands that only read, and READ NOTICES -/

theorem takeFindNumber (h : Works k s t) (n : BitVec 24) : Works k s (takeFindNumber n t).1 := by
  unfold Machine.takeFindNumber; split_ifs <;> exact h

theorem takeFindAddress (h : Works k s t) (a : BitVec 24) : Works k s (takeFindAddress a t).1 := by
  unfold Machine.takeFindAddress; split_ifs <;> exact h

theorem takeReadRecord (h : Works k s t) (i : BitVec 16) : Works k s (takeReadRecord i t).1 := by
  unfold Machine.takeReadRecord; split_ifs <;> exact h

theorem takeReadMessage (h : Works k s t) (ref : BitVec 16) : Works k s (takeReadMessage ref t).1 := by
  unfold Machine.takeReadMessage
  split
  · exact h
  · split <;> exact h

theorem takeLineStatus (h : Works k s t) (l : Byte) : Works k s (takeLineStatus l t).1 := by
  unfold Machine.takeLineStatus; split <;> exact h

theorem takeReadNotices (h : Works k s t) (c : Byte) : Works k s (takeReadNotices c t).1 := by
  unfold Machine.takeReadNotices
  split_ifs
  · exact h
  · exact h.withClu ⟨fun hlen => (List.drop_sublist ..).length_le.trans hlen, id⟩ rfl rfl

end State.Works

end Sys2Proof.Machine
end


section
namespace Sys2Proof.Machine
open Sys2Proof

/-! ## Starts and rows -/

theorem Four.set_set {α : Type} (f : Four α) (n : Fin 4) (v w : α) : (f.set n v).set n w = f.set n w := by
  unfold Four.set
  split_ifs <;> rfl

/-- The list of waiters and the lines are apart, and the last write of a line counts. -/
theorem State.putLine_putLine_offList (s : State) (n : Fin 4) (l l' : Line) (rest : List Waiter) :
    ((s.putLine n l).offList rest).putLine n l' = (s.offList rest).putLine n l' := by
  simp only [State.putLine, State.offList, Four.set_set]

namespace State.Runs
variable {s t u : State}

section
variable {code tag : Byte} {take : Nat → State → State × Reply}

/-- A command that starts takes one place of the response FIFO, which is not full (R175, R176). -/
theorem start (ht : ∀ place, Works none s (take place s).1) : s.Runs (s.start code tag take) := by
  cases hf : s.responseFull
  · have hk := ht s.freshPlace
    have hroom : s.clu.load < Config.responseFifo := by
      rw [← Bool.not_eq_true, State.responseFull_iff] at hf
      exact Nat.not_le.mp hf
    cases hr : take s.freshPlace s with
    | mk t reply =>
      rw [hr] at hk
      have hone : t.clu.load + 1 ≤ Config.responseFifo := by rw [hk.load]; exact hroom
      have hend : ∀ c : Clu, t.clu.Keeps c → c.queue = t.clu.queue → c.load = t.clu.load + 1 →
          s.Runs { t with clu := c } := fun c hc hqueue hload =>
        ⟨{ hk.toRespects with clu := hk.clu.trans hc }, fun _ => hload.trans_le hone, hqueue.trans hk.queue,
          hk.quietRuns.once⟩
      cases reply with
      | now result params =>
        rw [State.start_now hf hr]
        refine hend _ ⟨id, id⟩ rfl ?_
        simp only [Clu.load, List.length_append, List.length_singleton]
        omega
      | later =>
        rw [State.start_later hf hr]
        refine hend _ ⟨id, id⟩ rfl ?_
        simp only [Clu.load, List.length_append, List.length_singleton]
        omega
  · rw [State.start_full hf]; exact .refl s

theorem startTraffic (ht : ∀ place, Works none s (take place s).1) : s.Runs (s.startTraffic code tag take) := by
  unfold State.startTraffic
  split
  · exact .refl s
  · exact (start ht).afterTraffic

end

/-- Every host command runs so when it is started. -/
theorem startHost (s : State) (i : Instr) : s.Runs (startHost i s) := by
  have h := State.Works.refl none s
  cases i with
  | format => exact start fun _ => h.takeFormat ..
  | add => exact start fun _ => h.takeAdd ..
  | alter => exact start fun _ => h.takeAlter ..
  | suspend => exact start fun _ => h.takeSetState ..
  | resume => exact start fun _ => h.takeSetState ..
  | retire => exact startTraffic fun _ => h.takeRetire ..
  | findNumber => exact start fun _ => h.takeFindNumber _
  | findAddress => exact start fun _ => h.takeFindAddress _
  | readRecord => exact start fun _ => h.takeReadRecord _
  | cancel => exact startTraffic fun _ => h.takeCancel ..
  | readMessage => exact start fun _ => h.takeReadMessage _
  | trafficReset => exact start fun _ => h.takeTrafficReset _
  | setTariff => exact start fun _ => h.takeSetTariff _
  | readTariff => exact start (take := fun _ => takeReadTariff) fun _ => h
  | adjustBalance => exact start fun _ => h.takeAdjustBalance ..
  | setLine => exact start fun _ => h.takeSetLine _
  | enableLine => exact start fun _ => h.takeEnableLine _
  | disableLine => exact start fun _ => h.takeDisableLine _
  | lineStatus => exact start fun _ => h.takeLineStatus _
  | submit => exact startTraffic fun _ => h.takeSubmit ..
  | setZones _ zones => exact startTraffic (take := fun _ => takeSetZones zones) fun _ => h.withTraffic rfl rfl rfl
  | setOverride => exact startTraffic fun _ => h.takeSetOverride ..
  | zoneStatus => exact start (take := fun _ => takeZoneStatus) fun _ => h
  | setTransmitter => exact start fun _ => h.takeSetTransmitter _
  | holdDispatch => exact startTraffic fun _ => h.takeHoldDispatch _
  | setArbiter => exact start fun _ => h.takeSetArbiter _
  | dispatchStatus => exact start (take := fun _ => takeDispatchStatus) fun _ => h
  | setReturnLink => exact start fun _ => h.takeSetReturnLink _
  | enableReturnLink => exact start fun _ => h.takeEnableReturnLink _
  | disableReturnLink => exact start fun _ => h.takeDisableReturnLink _
  | setRetry => exact start fun _ => h.takeSetRetry ..
  | returnStatus => exact start (take := fun _ => takeReturnStatus) fun _ => h
  | setTimebase => exact start fun _ => h.takeSetTimebase ..
  | setClock => exact start fun _ => h.takeSetClock _
  | setClose => exact start fun _ => h.takeSetClose ..
  | closePeriod => exact start fun _ => h.takeClosePeriod
  | readExtract => exact start fun _ => h.takeReadExtract _
  | periodStatus => exact start (take := fun _ => takePeriodStatus) fun _ => h
  | status => exact start (take := fun _ => takeStatus) fun _ => h
  | readNotices => exact start fun _ => h.takeReadNotices _
  | _ => exact .refl s

/-! ### The lines and the waiters -/

/-- Waiters that leave the list. -/
theorem offList (s : State) {l : List Waiter} (hl : l.Sublist s.pdu.waiters) : s.Runs (s.offList l) :=
  ⟨⟨id, .refl _, id, id, fun _ => .refl _, .refl _, fun _ => .refl _, id, ⟨id, id, id, rfl⟩, .refl _, rfl⟩, id, rfl,
    (hl.filterMap Waiter.once).nodup⟩

/-- The line goes DOWN with the character of the third break received (R83). -/
theorem lineDown_received (s : State) (n : Fin 4) (data : Byte) (mark parity stop : Bool) :
    s.Runs ((s.putLine n ((s.line n).received data mark parity stop)).lineDown n) := by
  obtain ⟨l, hl⟩ : ∃ l, (s.line n).received data mark parity stop = l := ⟨_, rfl⟩
  have hdown := Line.Keeps.received_goDown (l := s.line n) data mark parity stop
  rw [hl] at hdown ⊢
  have hput : Works none (s.offList (s.pdu.waiters.erase (.line n)))
      ((s.offList (s.pdu.waiters.erase (.line n))).putLine n l.drive.goDown) := (Works.refl none _).setLine hdown
  have hlines : (s.putLine n l).lineDown n = State.resumeSweep (if l.disablePending then
      (s.offList (s.pdu.waiters.erase (.line n))).putLine n l.drive.goDown
      else ((s.offList (s.pdu.waiters.erase (.line n))).putLine n l.drive.goDown).raise (.lineDown n)) := by
    unfold State.lineDown
    dsimp only
    rw [State.line_putLine_same]
    exact congrArg (fun u : State => State.resumeSweep (if l.disablePending then u else u.raise (.lineDown n)))
      (State.putLine_putLine_offList ..)
  rw [hlines]
  have hend : Works none (s.offList (s.pdu.waiters.erase (.line n))) (if l.disablePending then
      (s.offList (s.pdu.waiters.erase (.line n))).putLine n l.drive.goDown
      else ((s.offList (s.pdu.waiters.erase (.line n))).putLine n l.drive.goDown).raise (.lineDown n)) := by
    split
    · exact hput
    · exact hput.raise _
  exact (offList s List.erase_sublist).trans hend.resumeSweep.quietRuns

theorem intakeCharacter (s : State) (n : Fin 4) (data : Byte) (mark parity stop : Bool) :
    s.Runs (s.intakeCharacter n data mark parity stop) := by
  by_cases hdisabled : (s.line n).state = .disabled
  · rw [State.intakeCharacter_disabled hdisabled]; exact .refl s
  by_cases hdown : (s.line n).state = .down
  · rw [State.intakeCharacter_down hdown]
    split
    · exact .refl s
    · exact (((Works.refl none s).setLine (.recover ..)).raise _).quietRuns
  · rw [State.intakeCharacter_busy hdisabled hdown]
    split
    next => exact lineDown_received ..
    next hrun => exact ((Works.refl none s).setLine (.received _ _ _ _ (Nat.not_le.mp hrun))).quietRuns

end State.Runs

end Sys2Proof.Machine
end


section
namespace Sys2Proof.Machine
open Sys2Proof

/-! ### The turn of a waiter (R164) -/

namespace State.Works
variable {k : Option Once} {s t u : State}

theorem settleReply {place : Nat} {p : State × Reply} (h : Works k s p.1) : Works k s (State.settleReply place p) := by
  obtain ⟨u, reply⟩ := p
  cases reply with
  | now result params => exact h.complete _ _ _
  | later => exact h

theorem retake (h : Works none s t) (place : Nat) (c : HeldCommand) : Works none s (t.retake place c).1 := by
  cases c with
  | submit => exact h.takeSubmit ..
  | alter => exact h.takeAlter ..
  | retire => exact h.takeRetire ..
  | cancel => exact h.takeCancel ..
  | adjust => exact h.takeAdjustBalance ..

theorem endHolder (h : Works k s t) (holder : Holder) : Works k s (t.endHolder holder) := by
  cases holder with
  | alone => exact h
  | answer => exact h.complete _ _ _
  | report l => exact h.popReport l
  | expiry => exact h
  | walk => exact h.advanceCursor

/-- An operation taken anew waits again, if it does, as the kind it waited as (R166). -/
theorem takeAnew (h : Works none s t) (w : Waiter) : Works w.once s (t.takeAnew w) := by
  cases w with
  | line n => exact h.acceptLine true n
  | command place c => exact settleReply (h.retake place c)
  | arbiter =>
    simp only [State.takeAnew]
    split
    · exact h.take true
    · exact h.widen
  | completion => exact h.completeFrame true
  | report l => exact h.takeReport true l
  | expiry => exact h.expire true
  | walk => exact h.flushStep true
  | closing i holder =>
    simp only [State.takeAnew]
    split
    next hw => exact ((h.writeClosing hw).endHolder holder).widen
    next => exact h.wait true (.closing i holder)

end State.Works

namespace State.Runs
variable {s t u : State}

/-- The waiter that has its turn is off the list, so that its kind has no place there (R164). -/
theorem takeAnew {w : Waiter} {rest : List Waiter} (hlist : s.pdu.waiters = w :: rest) :
    s.Runs ((s.offList rest).takeAnew w) := by
  have hoff : s.Runs (s.offList rest) := offList s (by rw [hlist]; exact List.sublist_cons_self ..)
  have hwork := (Works.refl none (s.offList rest)).takeAnew w
  refine ⟨hoff.toRespects.trans hwork.toRespects, fun hload => hwork.load.trans_le (hoff.load hload),
    hwork.queue.trans hoff.queue, fun hs => (hwork.runs fun o ho => ?_).once (hoff.once hs)⟩
  rw [hlist, oncesOf, List.filterMap_cons_some ho] at hs
  exact (List.nodup_cons.mp hs).1

theorem waiterTurn (s : State) : s.Runs s.waiterTurn := by
  unfold State.waiterTurn
  split
  next => exact .refl s
  next w rest hlist =>
    split
    · exact (takeAnew hlist).afterTraffic
    · exact .refl s

end State.Runs

/-! ### Events that take commands from the queue -/

/-- From `s` to `t` an event of the part happens in which no time passes. -/
structure State.Follows (s t : State) : Prop extends s.Respects t where
  load : s.clu.load ≤ Config.responseFifo → t.clu.load ≤ Config.responseFifo
  queue : s.clu.queue.length ≤ Config.commandQueue → t.clu.queue.length ≤ Config.commandQueue
  once : (oncesOf s.pdu.waiters).Nodup → (oncesOf t.pdu.waiters).Nodup

theorem State.Runs.follows {s t : State} (h : s.Runs t) : s.Follows t :=
  ⟨h.toRespects, h.load, fun hq => by rw [h.queue]; exact hq, h.once⟩

namespace State.Follows
variable {s t u : State}

theorem refl (s : State) : s.Follows s := (Runs.refl s).follows

theorem trans (h : s.Follows t) (g : t.Follows u) : s.Follows u :=
  ⟨h.toRespects.trans g.toRespects, g.load ∘ h.load, g.queue ∘ h.queue, g.once ∘ h.once⟩

/-- A write of the Command Link Unit. -/
theorem withClu (s : State) {c : Clu} (hc : s.clu.Keeps c)
    (hload : s.clu.load ≤ Config.responseFifo → c.load ≤ Config.responseFifo)
    (hqueue : s.clu.queue.length ≤ Config.commandQueue → c.queue.length ≤ Config.commandQueue) :
    s.Follows { s with clu := c } :=
  ⟨{ Respects.refl s with clu := hc }, hload, hqueue, id⟩

/-- A response is entered only while the FIFO is not full (R175). -/
theorem respond (hroom : s.responseFull = false) (r : Response) : s.Follows (s.respond r) := by
  refine withClu s ⟨id, id⟩ (fun _ => ?_) id
  rw [← Bool.not_eq_true, State.responseFull_iff] at hroom
  simp only [Clu.load, List.length_append, List.length_singleton] at hroom ⊢
  simp only [Config.responseFifo]
  omega

theorem startFrame (hroom : s.responseFull = false) (f : CommandFrame) : s.Follows (s.startFrame f) := by
  unfold State.startFrame
  split
  · exact respond hroom _
  · exact respond hroom _
  · split
    · exact respond hroom _
    · exact (Runs.startHost s _).follows

theorem startHead (s : State) : s.Follows s.startHead := by
  unfold State.startHead
  split
  next f rest hqueue =>
    split
    · exact .refl s
    next hroom =>
      refine trans ?_ (startFrame (s := { s with clu := { s.clu with queue := rest } })
        (Bool.eq_false_iff.mpr hroom) f)
      exact withClu s ⟨id, id⟩ id fun hlen => by rw [hqueue] at hlen; exact Nat.le_of_succ_le hlen
  next => exact .refl s

theorem startQueued (s : State) (k : Nat) : s.Follows (startQueued k s) := by
  induction k generalizing s with
  | zero => exact .refl s
  | succ k ih =>
    unfold Machine.startQueued
    split
    · exact .refl s
    · exact (startHead s).trans (ih _)

theorem dropFrame (s : State) : s.Follows s.dropFrame := withClu s ⟨id, id⟩ id id

theorem receiveFrame (s : State) (bytes : List Byte) : s.Follows (s.receiveFrame bytes) := by
  unfold State.receiveFrame
  split
  · exact dropFrame s
  · split_ifs
    · exact .refl s
    · exact dropFrame s
    · split
      · unfold State.offerFrame
        split
        next hroom =>
          refine trans ?_ (startQueued _ _)
          exact withClu s ⟨id, id⟩ id fun _ => by simpa using hroom
        next => exact dropFrame s
      · exact dropFrame s

theorem endExchange (s : State) (x : Exchange) (mosi : List Byte) : s.Follows (s.endExchange x mosi) := by
  have hoff : s.Follows { s with clu := { s.clu with exchange := none } } := withClu s ⟨id, id⟩ id id
  unfold State.endExchange
  dsimp only
  split
  · refine hoff.trans (trans (trans ?_ (startQueued _ _)) (receiveFrame _ mosi))
    refine withClu _ ⟨id, id⟩ (fun hload => le_trans ?_ hload) id
    exact Nat.add_le_add_right (List.length_tail.trans_le (Nat.sub_le ..)) _
  · exact hoff.trans (receiveFrame _ mosi)

theorem readOutStatus (s : State) : s.Follows s.readOutStatus := by
  unfold State.readOutStatus
  split
  · split
    · exact .refl s
    · exact withClu s ⟨id, nofun⟩ id id
  · exact .refl s

/-! ### Every row but the reset and the ticks -/

/-- Every event of the part but these is one in which no time passes. -/
theorem execEvent {i : Instr} (hi : i.commandCode.isSome = false) (hreset : i ≠ .hardwareReset) (htick : i ≠ .tick)
    (hminute : i ≠ .minuteAdvance) (ht : Machine.exec i s = .next t) : s.Follows t := by
  have h := Works.refl none s
  have either : ∀ {c : Prop} [Decidable c] {u : State}, (c → s.Follows u) → s.Follows (if c then u else s) := by
    intro c _ u hu; split
    · exact hu ‹_›
    · exact .refl s
  cases i <;> cases hi <;> cases ht
  case hardwareReset => exact absurd rfl hreset
  case tick => exact absurd rfl htick
  case minuteAdvance => exact absurd rfl hminute
  case exchangeBegin => exact either fun _ => withClu s ⟨id, id⟩ id id
  case statusByteReadOut => exact readOutStatus s
  case exchangeEnd mosi =>
    cases hx : s.clu.exchange with
    | none => exact .refl s
    | some x => exact endExchange s x mosi
  case commandStart => exact startHead s
  case formatCompletion => exact either fun _ => h.completeFormat.quietRuns.follows
  case flushWalkStep =>
    refine either fun hc => (Runs.afterTraffic ((h.flushStep false).runs ?_)).follows
    rintro o ⟨⟩
    rw [← State.walkWaits_once]
    simpa using (Bool.and_eq_true_iff.mp hc).2
  case intakeCharacterReceived => exact (Runs.intakeCharacter ..).follows
  case characterTaken => exact either fun _ => (h.setLine (.takeCharacter _)).quietRuns.follows
  case interCharacterTimerExpiry => exact either fun _ => (h.setLine (.endExchange _)).quietRuns.follows
  case pollSent n =>
    dsimp only
    split
    · exact .refl s
    · refine (h.setLine (n := n) ?_).quietRuns.follows
      exact .congr rfl le_rfl le_rfl
  case stationWaitExpiry => exact either fun _ => (h.setLine (.moveOn _)).quietRuns.follows
  case replyComplete => exact either fun _ => (h.setLine (.endExchange _)).quietRuns.follows
  case acceptance n =>
    refine either fun hc => (Runs.afterTraffic ((h.acceptLine false n).runs ?_)).follows
    rintro o ⟨⟩
    rw [← State.lineWaits_once, hc.2]
    exact Bool.false_ne_true
  case arbiterTake =>
    refine either fun hc => (Runs.afterTraffic ((h.take false).runs ?_)).follows
    obtain ⟨-, -, -, -, harbiter, -⟩ := s.takeAllowed_iff.mp hc
    rintro o ⟨⟩
    rw [← State.arbiterWaits_once, harbiter]
    exact Bool.false_ne_true
  case moveToSending => exact either fun _ => h.move.quietRuns.afterTraffic.follows
  case frameCompletion =>
    refine either fun hc => (Runs.afterTraffic ((h.completeFrame false).runs ?_)).follows
    rintro o ⟨⟩
    rw [← State.completionWaits_once]
    simpa using (Bool.and_eq_true_iff.mp hc).2
  case readyChange => exact (h.withPins _).quietRuns.afterTraffic.follows
  case rejectRise level =>
    exact (((h.withPins { s.pins with reject := level }).withTraffic (c := { s.dsu with
      refusal := s.dsu.refusal || (level && s.dsu.sending.isSome && !s.completionWaits) }) rfl rfl rfl)).quietRuns.follows
  case eholdChange => exact (h.withPins _).quietRuns.afterTraffic.follows
  case zoneStatusChange => exact (h.withPins _).quietRuns.afterTraffic.follows
  case returnCharacterReceived => exact (h.returnCharacter ..).quietRuns.follows
  case reportTimeout => exact either fun _ => (h.timeOutReport _).quietRuns.follows
  case reportTaken l =>
    refine either fun hc => (Runs.afterTraffic ((h.takeReport false l).runs ?_)).follows
    rintro o ⟨⟩
    rw [← State.reportWaits_once]
    simpa using (Bool.and_eq_true_iff.mp hc).2
  case expiry =>
    refine either fun hc => (Runs.afterTraffic ((h.expire false).runs ?_)).follows
    rintro o ⟨⟩
    rw [← State.expiryWaits_once]
    simpa using (Bool.and_eq_true_iff.mp hc).2
  case sweepVisit => exact either fun _ => h.sweepVisit.quietRuns.follows
  case extractWaiterTurn => exact (Runs.waiterTurn s).follows

theorem exec {i : Instr} (hreset : i ≠ .hardwareReset) (htick : i ≠ .tick) (hminute : i ≠ .minuteAdvance)
    (ht : Machine.exec i s = .next t) : s.Follows t := by
  cases hi : i.commandCode.isSome with
  | false => exact execEvent hi hreset htick hminute ht
  | true =>
    rw [exec_of_host s hi] at ht
    cases ht
    exact (Runs.startHost s i).follows

end State.Follows

/-! ## Every step keeps the invariants -/

/-- What every step keeps, whether or not time passes. -/
structure State.Keeps (s t : State) : Prop where
  canonical : s.canonical = true → t.canonical = true
  bounded : s.bounded = true → t.bounded = true
  chains : s.chainsBounded = true → t.chainsBounded = true
  once : s.waitersOnce = true → t.waitersOnce = true
  settings : s.settingsInRange = true → t.settingsInRange = true
  records : s.recordsInRange = true → t.recordsInRange = true

theorem State.Follows.keeps {s t : State} (h : s.Follows t) : s.Keeps t where
  canonical hs := by
    obtain ⟨hrecords, hnumbers, haddresses, hslots⟩ := State.canonical_iff.mp hs
    exact State.canonical_iff.mpr ⟨h.stu.records hrecords, h.stu.numbers hnumbers, h.stu.addresses haddresses,
      h.msu hslots⟩
  bounded hs := by
    obtain ⟨hextract, hnotices, hqueue, hload, hlines, hlinks⟩ := State.bounded_iff.mp hs
    exact State.bounded_iff.mpr ⟨h.pdu.extract hextract, h.clu.notices hnotices, h.queue hqueue, h.load hload,
      fun n => (h.line n).bounded (hlines n), fun l => (h.receiver l).bounded (hlinks l)⟩
  chains hs := by
    obtain ⟨hnumbers, haddresses⟩ := State.chainsBounded_iff.mp hs
    exact State.chainsBounded_iff.mpr ⟨h.stu.numberChains hnumbers, h.stu.addressChains haddresses⟩
  once hs := State.waitersOnce_iff.mpr (h.once (State.waitersOnce_iff.mp hs))
  settings hs := by
    obtain ⟨hcapacity, hchu, hlines, ⟨hrotation, hoverrides, hdivider⟩, hlinks, haru, hpdu, hperiod⟩ :=
      State.settingsInRange_iff.mp hs
    exact State.settingsInRange_iff.mpr ⟨h.stu.capacity hcapacity, h.chu hchu, fun n => (h.line n).inRange (hlines n),
      ⟨h.dsu.rotation hrotation, h.dsu.overrides.trans hoverrides, h.dsu.divider hdivider⟩,
      fun l => (h.receiver l).inRange (hlinks l), h.aru haru, h.pdu.inRange hpdu, h.pdu.period hperiod⟩
  records := h.records

namespace State.Keeps
variable {s t u : State}

theorem refl (s : State) : s.Keeps s := ⟨id, id, id, id, id, id⟩

theorem trans (h : s.Keeps t) (g : t.Keeps u) : s.Keeps u :=
  ⟨g.canonical ∘ h.canonical, g.bounded ∘ h.bounded, g.chains ∘ h.chains, g.once ∘ h.once, g.settings ∘ h.settings,
    g.records ∘ h.records⟩

/-- The timers of the lines and the links, the tick counter and the length of the tick bear on none of them. -/
theorem countTick (s : State) : s.Keeps s.countTick := by
  have hline : ∀ n, (s.line n).Keeps (s.countTick.line n) := fun n => by
    rw [State.line, State.line, State.countTick, Four.get_map]
    exact .countTick _
  refine ⟨id, fun hs => ?_, id, id, fun hs => ?_, id⟩
  · obtain ⟨hextract, hnotices, hqueue, hload, hlines, hlinks⟩ := State.bounded_iff.mp hs
    exact State.bounded_iff.mpr ⟨hextract, hnotices, hqueue, hload, fun n => (hline n).bounded (hlines n),
      fun l => by cases l; exacts [hlinks .a, hlinks .b]⟩
  · obtain ⟨hcapacity, hchu, hlines, hdsu, hlinks, hrest⟩ := State.settingsInRange_iff.mp hs
    exact State.settingsInRange_iff.mpr ⟨hcapacity, hchu, fun n => (hline n).inRange (hlines n), hdsu,
      fun l => by cases l; exacts [hlinks .a, hlinks .b], hrest⟩

theorem minuteTick (s : State) : s.Keeps s.minuteTick :=
  (countTick s).trans (Works.refl none _).advanceMinute.quietRuns.follows.keeps

theorem tickEvent (s : State) : s.Keeps s.tickEvent := by
  unfold State.tickEvent
  split
  · exact minuteTick s
  next hmore =>
    refine (countTick s).trans (Works.quietRuns ?_).follows.keeps
    refine (Works.refl none _).withPdu ⟨fun ⟨hp, he, _, hminute, hclose⟩ => ?_, id, id, rfl⟩ rfl
    exact ⟨hp, he, Nat.not_le.mp hmore, hminute, hclose⟩

theorem exec {i : Instr} (ht : Machine.exec i s = .next t) : s.Keeps t := by
  by_cases hreset : i = .hardwareReset
  · subst hreset
    cases ht
    exact ⟨fun _ => rfl, fun _ => rfl, fun _ => rfl, fun _ => rfl, fun _ => rfl, fun _ => rfl⟩
  by_cases htick : i = .tick
  · subst htick
    cases ht
    exact tickEvent s
  by_cases hminute : i = .minuteAdvance
  · subst hminute
    cases ht
    split
    · exact minuteTick s
    · exact .refl s
  exact (State.Follows.exec hreset htick hminute ht).keeps

theorem step (ht : Machine.step s = .next t) : s.Keeps t := by
  unfold Machine.step at ht
  split at ht
  next => cases ht; exact .refl s
  next i rest _ =>
    have hexec : State.Keeps { s with pending := rest } t := exec ht
    exact ⟨hexec.canonical, hexec.bounded, hexec.chains, hexec.once, hexec.settings, hexec.records⟩

end State.Keeps

/-- Settles O5: the operations on the tables keep their canonical form (`State.Works`), and every row is made of them
(`State.Keeps.step`). -/
theorem stepKeepsCanonicalForm : Obligations.StepKeepsCanonicalForm :=
  fun _ _ hs hstep => (State.Keeps.step hstep).canonical hs

/-- Settles O6: the FIFOs and the chains by `State.Keeps.step`; the waiters marked "once" by the kinds that an operation
may wait as (`Claims`), of which none stands in the list when the operation is made. -/
theorem stepKeepsCapacities : Obligations.StepKeepsCapacities :=
  ⟨fun _ _ hstep => ⟨(State.Keeps.step hstep).bounded, (State.Keeps.step hstep).chains⟩,
    fun _ _ hs hstep => (State.Keeps.step hstep).once hs⟩

/-- Settles O8: the settings block by block (`State.settingsInRange_iff`), by `State.Keeps.step`. -/
theorem stepKeepsSettings : Obligations.StepKeepsSettings :=
  fun _ _ hs hstep => (State.Keeps.step hstep).settings hs

/-- Settles O9: each write of a record keeps it in range (`Record.inRange_settle`, `Record.inRange_reserve`,
`Record.inRange_alter` and the like), by `State.Keeps.step`. -/
theorem stepKeepsRecords : Obligations.StepKeepsRecords :=
  fun _ _ hs hstep => (State.Keeps.step hstep).records hs

end Sys2Proof.Machine
end


section
namespace Sys2Proof.Machine
open Sys2Proof

/-! ## The queue of commands and the reset -/

/-- Settles O1: a step is defined by the front of the queue. -/
theorem stepRunsFrontCommand : Obligations.StepRunsFrontCommand :=
  ⟨fun c rest s hs => by rw [step, hs], fun s hs => by rw [step, hs]⟩

/-- No row of the table faults or is refused. -/
theorem exec_next (i : Instr) (s : State) : ∃ t, exec i s = .next t := by
  cases hi : i.commandCode.isSome with
  | true => exact ⟨_, exec_of_host s hi⟩
  | false => cases i <;> exact ⟨_, rfl⟩

/-- Settles O2: every row by `exec_next`, and a step is a row or leaves the state. -/
theorem everyCommandCompletes : Obligations.EveryCommandCompletes := by
  refine ⟨exec_next, fun s => ?_⟩
  unfold step
  split
  · exact ⟨s, rfl⟩
  · exact exec_next _ _

/-- Settles O3: the reset writes every block, and each field is read off. -/
theorem hardwareResetValues : Obligations.HardwareResetValues := by
  intro s
  refine ⟨_, rfl, rfl, rfl, rfl, rfl, rfl, rfl, rfl, rfl, rfl, rfl, rfl, fun n => ?_, rfl, rfl, rfl, rfl, rfl, rfl, rfl,
    rfl, rfl, rfl, rfl, fun l => ?_, rfl, rfl, rfl, rfl, rfl, rfl, rfl, rfl, rfl, rfl, rfl, rfl, rfl, rfl, rfl, rfl⟩
  · fin_cases n <;> rfl
  · cases l <;> rfl

/-- Settles O4: the reset state is one concrete state, and each property is evaluated on it. -/
theorem resetIsSound : Obligations.ResetIsSound := by
  refine ⟨?_, ?_, ?_, ?_, ?_, ?_, ?_, ?_, ?_, ?_, ?_⟩ <;> rfl

/-- A tick changes the timers and the clock, and neither the waiting commands nor the reset indication. -/
theorem State.tickEvent_pending (s : State) :
    s.tickEvent.pending = s.pending ∧ (s.tickEvent.clu.resetSeen = true → s.clu.resetSeen = true) := by
  unfold State.tickEvent
  split
  · have hminute := (State.Works.refl none s.countTick).advanceMinute
    exact ⟨hminute.pending, hminute.clu.resetSeen⟩
  · exact ⟨rfl, id⟩

/-- Settles O11: the rows in which no time passes by `State.Follows.exec`, the ticks by `State.tickEvent_pending`. -/
theorem timeAndResetIndication : Obligations.TimeAndResetIndication := by
  intro c s t ht
  by_cases hreset : c = .hardwareReset
  · subst hreset
    cases ht
    exact ⟨rfl, fun _ _ h => absurd rfl h, fun h => absurd rfl h⟩
  by_cases htick : c = .tick
  · subst htick
    cases ht
    exact ⟨s.tickEvent_pending.1, fun h => absurd rfl h, fun _ => s.tickEvent_pending.2⟩
  by_cases hminute : c = .minuteAdvance
  · subst hminute
    cases ht
    refine ⟨?_, fun _ h => absurd rfl h, fun _ => ?_⟩ <;> split
    · exact (State.Works.refl none s.countTick).advanceMinute.pending
    · rfl
    · exact (State.Works.refl none s.countTick).advanceMinute.clu.resetSeen
    · exact id
  have h := State.Follows.exec hreset htick hminute ht
  exact ⟨h.pending, fun _ _ _ => h.pdu.tick, fun _ => h.clu.resetSeen⟩

/-! ## Command frames -/

/-- Settles O12: one lemma of `Laws.FrameRoundTrip` for each command. -/
theorem commandFrameRoundTrip : Obligations.CommandFrameRoundTrip :=
  fun i code hw hcode => frameRoundTrip i hw code hcode

/-- Settles O13: with no response to remove, the frame is looked at alone, and starts its command
(`State.receiveFrame_commandFrame`). -/
theorem exchangeRunsHostCommand : Obligations.ExchangeRunsHostCommand := by
  intro i s x hw hi hx hr hq hfull
  refine ⟨startHost i s.offExchange, ?_, exec_of_host s.offExchange hi⟩
  have hstart := State.receiveFrame_commandFrame (s := s.offExchange) (more := []) hw hi hq hfull
  rw [exec_exchangeEnd_unanswered hx hr, ← hstart, List.append_nil]

section
variable {i : Instr} {ps : List Byte}

theorem readNone_eq_some {j : Instr} : readNone j ps = some i ↔ ps = [] ∧ j = i := by
  unfold readNone
  split <;> simp_all

theorem readByte_eq_some {f : Byte → Instr} : readByte f ps = some i ↔ ∃ b, ps = [b] ∧ f b = i := by
  unfold readByte
  split <;> simp_all

theorem readTwo_eq_some {f : BitVec 16 → Instr} :
    readTwo f ps = some i ↔ ∃ b1 b0, ps = [b1, b0] ∧ f (join2 b1 b0) = i := by
  unfold readTwo
  split <;> simp_all

theorem readThree_eq_some {f : BitVec 24 → Instr} :
    readThree f ps = some i ↔ ∃ b2 b1 b0, ps = [b2, b1, b0] ∧ f (join3 b2 b1 b0) = i := by
  unfold readThree
  split <;> simp_all

theorem readThreeByte_eq_some {f : BitVec 24 → Byte → Instr} :
    readThreeByte f ps = some i ↔ ∃ b2 b1 b0 b, ps = [b2, b1, b0, b] ∧ f (join3 b2 b1 b0) b = i := by
  unfold readThreeByte
  split <;> simp_all

/-- The commands read from frames are host commands: grouped by what reads their parameters (R188). -/
theorem readCommand_isSome {code tag : Byte} (h : readCommand code tag ps = some (some i)) :
    i.commandCode.isSome = true := by
  unfold readCommand at h
  split at h
  case h_12 | h_14 | h_23 | h_27 | h_32 | h_36 | h_38 | h_39 =>
    obtain ⟨-, rfl⟩ := readNone_eq_some.mp (Option.some.inj h)
    rfl
  case h_1 | h_17 | h_18 | h_19 | h_24 | h_25 | h_26 | h_29 | h_30 | h_37 | h_40 =>
    obtain ⟨b, -, rfl⟩ := readByte_eq_some.mp (Option.some.inj h)
    rfl
  case h_9 | h_10 | h_11 | h_21 =>
    obtain ⟨b1, b0, -, rfl⟩ := readTwo_eq_some.mp (Option.some.inj h)
    rfl
  case h_4 | h_5 | h_7 | h_8 | h_34 =>
    obtain ⟨b2, b1, b0, -, rfl⟩ := readThree_eq_some.mp (Option.some.inj h)
    rfl
  case h_6 | h_35 =>
    obtain ⟨b2, b1, b0, b, -, rfl⟩ := readThreeByte_eq_some.mp (Option.some.inj h)
    rfl
  case h_13 | h_16 | h_20 =>
    obtain ⟨args, -, rfl⟩ := Option.map_eq_some_iff.mp (Option.some.inj h)
    rfl
  case h_2 =>
    unfold readAdd at h
    split at h <;> cases h
    rfl
  case h_3 =>
    split at h
    · obtain ⟨args, -, rfl⟩ := Option.map_eq_some_iff.mp (Option.some.inj h)
      rfl
    · cases h
  case h_15 | h_22 | h_28 | h_31 | h_33 =>
    split at h <;> cases h
    rfl
  case h_41 => cases h

theorem parseCommand_isSome {code tag : Byte} (h : parseCommand code tag ps = .command i) :
    i.commandCode.isSome = true := by
  unfold parseCommand at h
  split at h <;> cases h
  exact readCommand_isSome ‹_›

end

section
variable {s : State} {f : CommandFrame} {rest : List CommandFrame}

/-- The state once the head frame has left the queue (R175). -/
def State.offQueue (s : State) (rest : List CommandFrame) : State := { s with clu := { s.clu with queue := rest } }

theorem exec_commandStart (hq : s.clu.queue = f :: rest) (hfull : s.responseFull = false) :
    exec .commandStart s = .next ((s.offQueue rest).startFrame f) := by
  change Host.Outcome.next s.startHead = _
  simp [State.startHead, hq, hfull, State.offQueue]

theorem State.startHead_full (hfull : s.responseFull = true) : s.startHead = s := by
  unfold State.startHead
  split
  · rw [if_pos hfull]
  · rfl

/-- While the response FIFO is full a host command leaves the state as it is (R175). -/
theorem startHost_full {i : Instr} (hi : i.commandCode.isSome = true) (hfull : s.responseFull = true) :
    startHost i s = s := by
  cases i <;> cases hi <;> exact if_pos hfull

end

/-- Settles O17: the checks of R175 by the cases of `State.startFrame`. -/
theorem commandStartTakesHead : Obligations.CommandStartTakesHead := by
  refine ⟨fun s f rest hq hfull => ?_, fun i s hi hfull => ?_, fun s hfull => ?_⟩
  · rw [exec_commandStart hq hfull]
    refine ⟨fun hparse => ?_, fun hparse => ?_, fun i hparse hshort => ?_, fun i hparse hshort => ?_⟩
    · rw [State.startFrame, hparse]
      rfl
    · rw [State.startFrame, hparse]
      rfl
    · rw [State.startFrame, hparse]
      exact congrArg _ (if_pos hshort)
    · refine ⟨_, rfl, ?_⟩
      rw [State.startFrame_command hparse hshort]
      exact exec_of_host _ (parseCommand_isSome hparse)
  · rw [exec_of_host s hi, startHost_full hi hfull]
  · exact congrArg Host.Outcome.next (State.startHead_full hfull)

/-! ## The status byte (R190) -/

/-- The status byte over what its fields say. -/
theorem statusByte_fields : ∀ (responses notices dropped resetSeen inProgress : Bool) (n : Fin 5),
    let b : Byte := (if responses then 0x00 else 0x80) ||| (if notices then 0x00 else 0x40) |||
      (if dropped then 0x20 else 0x00) ||| (if resetSeen then 0x10 else 0x00) ||| BitVec.ofNat 8 (2 * n.val) |||
      (if inProgress then 0x00 else 0x01)
    b.getLsbD 7 = !responses ∧ b.getLsbD 6 = !notices ∧ b.getLsbD 5 = dropped ∧ b.getLsbD 4 = resetSeen ∧
      (b.extractLsb' 1 3).toNat = n.val ∧ b.getLsbD 0 = !inProgress := by
  decide

/-- Settles O14: the fields by `statusByte_fields`, and the byte of R190 by evaluation. -/
theorem statusByteLayout : Obligations.StatusByteLayout := by
  refine ⟨fun s hqueue => ?_, rfl⟩
  obtain ⟨h7, h6, h5, h4, hcount, h0⟩ := statusByte_fields s.clu.responses.isEmpty s.clu.notices.isEmpty s.clu.dropped
    s.clu.resetSeen s.clu.inProgress.isEmpty ⟨s.clu.queue.length, Nat.lt_succ_of_le hqueue⟩
  refine ⟨h7, h6, h5, h4, hcount, h0, fun hr hn hd hreset hq hp => ?_⟩
  simp [State.statusByte, hr, hn, hd, hreset, hq, hp]

end Sys2Proof.Machine
end


section
namespace Sys2Proof.Machine
open Sys2Proof

/-! ## Bits in their order -/

/-- Pieces of one length, joined: the place of each item of a piece. -/
theorem getElem?_flatMap_pieces {α β : Type} {f : α → List β} {w : Nat} (hw : ∀ x, (f x).length = w) {l : List α}
    {c i : Nat} {x : α} (hx : l[c]? = some x) (hi : i < w) : (l.flatMap f)[w * c + i]? = (f x)[i]? := by
  induction l generalizing c with
  | nil => simp at hx
  | cons y l ih =>
    rw [List.flatMap_cons]
    cases c with
    | zero =>
      obtain rfl : y = x := by simpa using hx
      rw [Nat.mul_zero, Nat.zero_add, List.getElem?_append_left (by rwa [hw])]
    | succ c =>
      have hplace : w * (c + 1) + i = (f y).length + (w * c + i) := by rw [hw, Nat.mul_succ]; omega
      rw [hplace, List.getElem?_append_right (Nat.le_add_right ..), Nat.add_sub_cancel_left]
      exact ih (by simpa using hx)

theorem length_flatMap_pieces {α β : Type} {f : α → List β} {w : Nat} (hw : ∀ x, (f x).length = w) (l : List α) :
    (l.flatMap f).length = w * l.length := by
  simp [List.length_flatMap, hw, Nat.mul_comm]

@[simp] theorem msbFirst_length (w n : Nat) : (msbFirst w n).length = w := by simp [msbFirst]

theorem msbFirst_getElem? {w i : Nat} (n : Nat) (hi : i < w) : (msbFirst w n)[i]? = some (n.testBit (w - 1 - i)) := by
  simp [msbFirst, hi]

/-! ## The tag of a slot (R35) -/

/-- The tag chosen is reached counting upward over tags in use. -/
theorem chooseTag_steps (used : List Nat) (k : Nat) {t : Nat} (ht : t < 128) :
    ∃ j ≤ k, chooseTag used k t = (t + j) % 128 ∧ ∀ i < j, (t + i) % 128 ∈ used := by
  have hfirst : (t + 0) % 128 = t := Nat.mod_eq_of_lt ht
  induction k generalizing t with
  | zero => exact ⟨0, le_rfl, hfirst.symm, fun i hi => absurd hi i.not_lt_zero⟩
  | succ k ih =>
    unfold chooseTag
    split
    next hmem =>
      have hnext : (t + 1) % 128 < 128 := Nat.mod_lt _ (by norm_num)
      have hshift : ∀ j, ((t + 1) % 128 + j) % 128 = (t + (j + 1)) % 128 := fun j => by omega
      obtain ⟨j, hj, htag, hused⟩ := ih hnext (Nat.mod_eq_of_lt hnext)
      refine ⟨j + 1, Nat.succ_le_succ hj, by rw [htag, hshift], fun i hi => ?_⟩
      cases i with
      | zero => rwa [hfirst]
      | succ i =>
        rw [← hshift]
        exact hused i (Nat.lt_of_succ_lt_succ hi)
    next => exact ⟨0, Nat.zero_le _, hfirst.symm, fun i hi => absurd hi i.not_lt_zero⟩

/-- 17 tags in a row do not all stand in a list of 16. -/
theorem tags_in_row {used : List Nat} {t : Nat} (h : ∀ i < 17, (t + i) % 128 ∈ used) : 17 ≤ used.length := by
  have hcard : (Finset.range 17).card ≤ used.toFinset.card := by
    refine Finset.card_le_card_of_injOn (fun i => (t + i) % 128) (fun i hi => ?_) fun a ha b hb hab => ?_
    · exact List.mem_toFinset.mpr (h i (by simpa using hi))
    · simp only [Finset.coe_range, Set.mem_Iio] at ha hb hab
      omega
  rw [Finset.card_range] at hcard
  exact hcard.trans (List.toFinset_card_le used)

/-- Settles O29: the tags tried (`chooseTag_steps`) are fewer than 17, for the list has at most 16
(`tags_in_row`). -/
theorem tagChoice : Obligations.TagChoice := by
  intro used start hlen hstart
  obtain ⟨j, -, htag, hused⟩ := chooseTag_steps used 17 hstart
  have hfree : chooseTag used 17 start ∉ used := chooseTag_not_mem (Nat.lt_succ_of_le hlen) start
  refine ⟨j, ?_, htag, htag ▸ hfree, hused⟩
  by_contra hmany
  exact absurd (tags_in_row fun i hi => hused i (by omega)) (by omega)

/-! ## The arbiter's order (R109, R110) -/

/-- Settles O44: the ranks of the two modes, written out. -/
theorem arbiterOrder : Obligations.ArbiterOrder := by
  refine ⟨fun d hmode => ⟨?_, fun q => ?_⟩, fun d hmode => ⟨?_, fun hurgent => ?_, ?_⟩⟩
  · split_ifs with hu hr hn hd
    · simp [Dsu.serve, hmode, Queues.get, hu]
    · simp [Dsu.serve, hmode, Queues.get, not_not.mp hu, hr]
    · simp [Dsu.serve, hmode, Queues.get, not_not.mp hu, not_not.mp hr, hn]
    · simp [Dsu.serve, hmode, Queues.get, not_not.mp hu, not_not.mp hr, not_not.mp hn, hd]
    · simp [Dsu.serve, hmode, Queues.get, not_not.mp hu, not_not.mp hr, not_not.mp hn, not_not.mp hd]
  · simp [Dsu.rotate, hmode]
  · simp [Dsu.rotate]
  · simp [Dsu.serve, hmode, Queues.get, hurgent]
  · intro a b c hrotation hab hac hbc ha hb hc
    refine ⟨?_, ?_, ?_, fun hurgent => ⟨fun h => ?_, fun h₁ h => ?_, fun h₁ h₂ h => ?_, fun h₁ h₂ h => ?_⟩⟩
    · simp [Dsu.rotate, hmode, hrotation, ha]
    · simp [Dsu.rotate, hmode, hrotation, hb, hab]
    · simp [Dsu.rotate, hmode, hrotation, hc, hac, hbc]
    · simp [Dsu.serve, hmode, hrotation, show d.queues.get .urgent = [] from hurgent, h]
    · simp [Dsu.serve, hmode, hrotation, show d.queues.get .urgent = [] from hurgent, h₁, h]
    · simp [Dsu.serve, hmode, hrotation, show d.queues.get .urgent = [] from hurgent, h₁, h₂, h]
    · simp [Dsu.serve, hmode, hrotation, show d.queues.get .urgent = [] from hurgent, h₁, h₂, h]

/-! ## The zone set fixed at staging (R116, R117) -/

section
variable {live home service : ZoneSet} {z k : Nat} {p : Presence} {kind : PagerKind}

/-- A zone of its own is within the live set exactly when it is live. -/
theorem zone_and_live (h : live.getLsbD z = true) : (1#16 <<< z) &&& live = 1#16 <<< z := by
  ext i hi
  by_cases hz : i = z
  · subst hz; simp [BitVec.getLsbD_eq_getElem hi ▸ h]
  · simp [BitVec.getElem_one]; omega

theorem zone_and_not_live (h : live.getLsbD z = false) : (1#16 <<< z) &&& live = 0 := by
  ext i hi
  by_cases hz : i = z
  · subst hz; simp [BitVec.getLsbD_eq_getElem hi ▸ h]
  · simp [BitVec.getElem_one]; omega

theorem or_and_zones (a b live : ZoneSet) : (a ||| b) &&& live = (a &&& live) ||| (b &&& live) := by
  ext i hi
  simp [Bool.and_or_distrib_right]

theorem zone_ne_zero (hz : z < 16) : (1#16 <<< z) ≠ 0 := by
  intro h
  have hbit := congrArg (BitVec.getLsbD · z) h
  simp [hz] at hbit

/-- The candidate is kept where some zone of it is live. -/
theorem fixedZones_first (h : candidateZones kind k p home service &&& live ≠ 0) :
    fixedZones kind k p home service live = candidateZones kind k p home service &&& live := if_pos h

/-- An empty candidate of a first attempt to a TWO-WAY pager is widened to that of a second (R117). -/
theorem fixedZones_second (h₁ : candidateZones .twoWay 1 p home service &&& live = 0)
    (h₂ : candidateZones .twoWay 2 p home service &&& live ≠ 0) :
    fixedZones .twoWay 1 p home service live = candidateZones .twoWay 2 p home service &&& live :=
  (if_neg (not_not.mpr h₁)).trans (if_pos ⟨rfl, rfl, h₂⟩)

/-- An empty candidate is widened to the live set in the end (R117). -/
theorem fixedZones_live (h : candidateZones kind k p home service &&& live = 0)
    (h₂ : ¬ (kind = .twoWay ∧ k = 1 ∧ candidateZones kind 2 p home service &&& live ≠ 0)) :
    fixedZones kind k p home service live = live := (if_neg (not_not.mpr h)).trans (if_neg h₂)

/-- The zones that are fixed are one of the three sets. -/
theorem fixedZones_cases : fixedZones kind k p home service live = candidateZones kind k p home service &&& live ∧
      candidateZones kind k p home service &&& live ≠ 0 ∨
    fixedZones kind k p home service live = candidateZones kind 2 p home service &&& live ∧
      candidateZones kind 2 p home service &&& live ≠ 0 ∨
    fixedZones kind k p home service live = live := by
  by_cases h₁ : candidateZones kind k p home service &&& live = 0
  · by_cases h₂ : kind = .twoWay ∧ k = 1 ∧ candidateZones kind 2 p home service &&& live ≠ 0
    · obtain ⟨rfl, rfl, hsecond⟩ := h₂
      exact .inr (.inl ⟨fixedZones_second h₁ hsecond, hsecond⟩)
    · exact .inr (.inr (fixedZones_live h₁ h₂))
  · exact .inl ⟨fixedZones_first h₁, h₁⟩

/-- With a presence zone that adds nothing, the first two attempts take the home zones that are live, or the live set. -/
theorem fixedZones_home (hk : k = 1 ∨ k = 2) (h₁ : candidateZones .twoWay 1 p home service &&& live = home &&& live ∨
      candidateZones .twoWay 1 p home service &&& live = 0)
    (h₂ : candidateZones .twoWay 2 p home service &&& live = home &&& live) :
    fixedZones .twoWay k p home service live = if home &&& live ≠ 0 then home &&& live else live := by
  split
  next hhome =>
    obtain rfl | rfl := hk
    · by_cases hfirst : candidateZones .twoWay 1 p home service &&& live = 0
      · rw [fixedZones_second hfirst (by rwa [h₂]), h₂]
      · rw [fixedZones_first hfirst, h₁.resolve_right hfirst]
    · rw [fixedZones_first (by rwa [h₂]), h₂]
  next hhome =>
    have hempty : home &&& live = 0 := not_not.mp hhome
    have hsecond : candidateZones .twoWay 2 p home service &&& live = 0 := h₂.trans hempty
    refine fixedZones_live ?_ fun h => h.2.2 hsecond
    obtain rfl | rfl := hk
    · exact h₁.elim (·.trans hempty) id
    · exact hsecond

end

/-- Settles O45: the candidate of each attempt, and what it is cut and widened to (`fixedZones_first`,
`fixedZones_home`, `fixedZones_live`); that the set is never empty nor dead, by `fixedZones_cases`. -/
theorem zoneSetChoice : Obligations.ZoneSetChoice := by
  intro k p home service live
  refine ⟨fun h => fixedZones_first h, fun h => fixedZones_live h nofun, fun z hz hlive => ⟨?_, ?_⟩,
    fun z hz hdead hk => ?_, fun hp hk => ?_, fun hk hservice => ?_, fun hlive kind => ?_⟩
  · have hzone := zone_and_live hlive
    have hcut : candidateZones .twoWay 1 (.here z) home service &&& live = 1#16 <<< z := hzone
    rw [fixedZones_first (by rw [hcut]; exact zone_ne_zero hz), hcut]
  · have hcut : candidateZones .twoWay 2 (.here z) home service &&& live = (home ||| 1#16 <<< z) &&& live := rfl
    refine fixedZones_first (hcut ▸ fun hempty => zone_ne_zero hz ?_)
    have hboth : (home &&& live) ||| (1#16 <<< z &&& live) = 0 := by rw [← or_and_zones]; exact hempty
    rw [zone_and_live hlive] at hboth
    exact (BitVec.or_eq_zero_iff.mp hboth).2
  · have hsecond : (home ||| 1#16 <<< z) &&& live = home &&& live := by
      rw [or_and_zones, zone_and_not_live hdead]
      exact BitVec.or_zero
    exact fixedZones_home hk (.inr (zone_and_not_live hdead)) hsecond
  · have hfirst : candidateZones .twoWay 1 p home service = home := by
      cases p with
      | here z => exact absurd rfl (hp z)
      | _ => rfl
    have hsecond : candidateZones .twoWay 2 p home service = home := by
      cases p with
      | here z => exact absurd rfl (hp z)
      | _ => exact BitVec.or_zero
    exact fixedZones_home hk (.inl (by rw [hfirst])) (by rw [hsecond])
  · have hcut : candidateZones .twoWay k p home service &&& live = live := by
      have hcandidate : candidateZones .twoWay k p home service = service := by
        simp [candidateZones, show k ≠ 1 by omega, show k ≠ 2 by omega]
      rw [hcandidate, BitVec.and_comm, hservice]
    by_cases hlive : live = 0
    · exact fixedZones_live (hcut.trans hlive) fun h => by omega
    · rw [fixedZones_first (by rwa [hcut]), hcut]
  · obtain ⟨heq, hne⟩ | ⟨heq, hne⟩ | heq := fixedZones_cases (kind := kind) (k := k) (p := p) (home := home)
      (service := service) (live := live)
    · rw [heq, BitVec.and_assoc, BitVec.and_self]; exact ⟨hne, rfl⟩
    · rw [heq, BitVec.and_assoc, BitVec.and_self]; exact ⟨hne, rfl⟩
    · rw [heq, BitVec.and_self]; exact ⟨hlive, rfl⟩

/-! ## The frame on TXD (R186) -/

/-- The bits of the first field of a frame, and those after it. -/
theorem msbFirst_append_within {w i : Nat} (n : Nat) (l : List Bool) (hi : i < w) :
    (msbFirst w n ++ l)[i]? = some (n.testBit (w - 1 - i)) := by
  rw [List.getElem?_append_left (by simpa using hi), msbFirst_getElem? n hi]

theorem msbFirst_append_past (w n : Nat) (l : List Bool) (i : Nat) : (msbFirst w n ++ l)[w + i]? = l[i]? := by
  rw [List.getElem?_append_right (by simp), msbFirst_length, Nat.add_sub_cancel_left]

/-- Settles O49: the fields stand after each other, and the characters of the body in pieces of seven bits. -/
theorem transmitterFrameLayout : Obligations.TransmitterFrameLayout := by
  refine ⟨fun f => ?_, fun f i => ?_, fun s h => ?_, fun s b hb hw => ?_⟩
  · simp only [TxFrame.bits, List.length_append, msbFirst_length, List.length_singleton,
      length_flatMap_pieces (fun b : Byte => msbFirst_length 7 b.toNat)]
  · refine ⟨fun hi => ?_, fun hi => ?_, fun hi => ?_, fun hi => ?_, ?_, fun hi => ?_, fun hi => ?_,
      fun c x hx hi => ?_⟩
    all_goals simp only [TxFrame.bits, List.append_assoc]
    · rw [msbFirst_append_within _ _ hi, BitVec.testBit_toNat]
    · rw [msbFirst_append_past 16 _ _ i, msbFirst_append_within _ _ hi]
    · rw [show 36 + i = 16 + (20 + i) by omega, msbFirst_append_past, msbFirst_append_past,
        msbFirst_append_within _ _ hi]
    · rw [show 43 + i = 16 + (20 + (7 + i)) by omega, msbFirst_append_past, msbFirst_append_past,
        msbFirst_append_past, msbFirst_append_within _ _ hi]
    · rw [show 45 = 16 + (20 + (7 + (2 + 0))) by rfl, msbFirst_append_past, msbFirst_append_past,
        msbFirst_append_past, msbFirst_append_past]
      rfl
    · rw [show 46 + i = 16 + (20 + (7 + (2 + (i + 1)))) by omega, msbFirst_append_past, msbFirst_append_past,
        msbFirst_append_past, msbFirst_append_past, List.singleton_append, List.getElem?_cons_succ,
        msbFirst_append_within _ _ hi]
    · rw [show 49 + i = 16 + (20 + (7 + (2 + (3 + i + 1)))) by omega, msbFirst_append_past, msbFirst_append_past,
        msbFirst_append_past, msbFirst_append_past, List.singleton_append, List.getElem?_cons_succ,
        msbFirst_append_past, msbFirst_append_within _ _ hi]
    · rw [show 56 + 7 * c + i = 16 + (20 + (7 + (2 + (3 + (7 + (7 * c + i)) + 1)))) by omega, msbFirst_append_past,
        msbFirst_append_past, msbFirst_append_past, msbFirst_append_past, List.singleton_append,
        List.getElem?_cons_succ, msbFirst_append_past, msbFirst_append_past,
        getElem?_flatMap_pieces (fun b : Byte => msbFirst_length 7 b.toNat) hx hi, msbFirst_getElem? _ hi,
        BitVec.testBit_toNat]
  · obtain hnone | hw := h
    · simp [State.transmitter, hnone]
    · rw [State.transmitter, State.completionWaits_iff.mpr hw, if_pos rfl]
  · rw [State.transmitter, if_neg (mt State.completionWaits_iff.mp hw), hb]
    rfl

end Sys2Proof.Machine
end


section
namespace Sys2Proof.Machine
open Sys2Proof

/-! ## The exchange (R171, R172) -/

theorem Exchange.shifted_within {x : Exchange} {n : Nat} (hn : n ≤ x.miso.length) : x.shifted n = x.miso.take n := by
  rw [Exchange.shifted, Nat.sub_eq_zero_of_le hn, List.replicate_zero, List.append_nil]

theorem Exchange.shifted_past (x : Exchange) (n : Nat) :
    x.shifted (x.miso.length + n) = x.miso ++ List.replicate n 0 := by
  rw [Exchange.shifted, List.take_of_length_le (Nat.le_add_right ..), Nat.add_sub_cancel_left]

/-- The eight bits of a byte, most significant first, make the byte. -/
theorem byte_of_msbFirst : ∀ b : Byte,
    BitVec.ofNat 8 (((List.range 8).map fun i => b.getLsbD (7 - i)).foldl (fun acc b => 2 * acc + b.toNat) 0) = b := by
  decide

/-- Bits that make no whole byte make none. -/
theorem mosiBytes_cut {cut : List Bool} (h : cut.length < 8) : mosiBytes cut = [] := by
  unfold mosiBytes
  split
  · simp only [List.length_cons] at h
    omega
  · rfl

/-- The bytes whose bits the host clocks, each most significant bit first, are those that the part samples. -/
theorem mosiBytes_bits {cut : List Bool} (h : cut.length < 8) (bytes : List Byte) :
    mosiBytes (bytes.flatMap (fun b => (List.range 8).map fun i => b.getLsbD (7 - i)) ++ cut) = bytes := by
  induction bytes with
  | nil => exact mosiBytes_cut h
  | cons b bytes ih =>
    rw [List.flatMap_cons, List.append_assoc]
    exact congrArg₂ List.cons (byte_of_msbFirst b) ih

theorem exec_exchangeBegin {s : State} (h : s.clu.exchange = none) :
    exec .exchangeBegin s = .next { s with clu := { s.clu with
      exchange := some { statusByte := s.statusByte, response := s.clu.responses.head?, readOut := false } } } := by
  change execExchangeBegin s = _
  rw [execExchangeBegin, h]
  rfl

section
variable {s : State} {x : Exchange}

theorem State.readOutStatus_first (hx : s.clu.exchange = some x) (h : x.readOut = false) :
    s.readOutStatus = { s with clu := { s.clu with
      exchange := some { x with readOut := true }, dropped := false, resetSeen := false } } := by
  rw [State.readOutStatus, hx]
  exact if_neg (ne_true_of_eq_false h)

theorem State.readOutStatus_again (hx : s.clu.exchange = some x) (h : x.readOut = true) : s.readOutStatus = s := by
  rw [State.readOutStatus, hx]
  exact if_pos h

/-- MISO carries the bytes that are shifted, eight bits for each (R171). -/
theorem State.misoBits_some (hx : s.clu.exchange = some x) (n : Nat) :
    ∃ bits, s.misoBits n = some bits ∧ bits.length = 8 * n ∧
      ∀ k b i, (x.shifted n)[k]? = some b → i < 8 → bits[8 * k + i]? = some (b.getLsbD (7 - i)) := by
  have hpieces : ∀ b : Byte, (msbFirst 8 b.toNat).length = 8 := fun b => msbFirst_length 8 b.toNat
  refine ⟨_, by rw [State.misoBits, hx]; rfl, ?_, fun k b i hb hi => ?_⟩
  · rw [length_flatMap_pieces hpieces, x.shifted_length]
  · rw [getElem?_flatMap_pieces hpieces hb hi, msbFirst_getElem? _ hi, BitVec.testBit_toNat]

end

/-- Settles O15: the two rows by their branches, the bytes shifted by `Exchange.shifted_within` and
`Exchange.shifted_past`, and their bits by `State.misoBits_some` and `mosiBytes_bits`. -/
theorem exchangeBeginAndReadOut : Obligations.ExchangeBeginAndReadOut := by
  refine ⟨fun s h => exec_exchangeBegin h,
    fun s x hx h => congrArg Host.Outcome.next (State.readOutStatus_first hx h),
    fun s x hx h => congrArg Host.Outcome.next (State.readOutStatus_again hx h),
    fun x h => by rw [Exchange.miso, h], fun x r h => by rw [Exchange.miso, h]; rfl,
    fun x n => ⟨Exchange.shifted_within, x.shifted_past n⟩,
    fun s n => ⟨fun h => by rw [State.misoBits, h]; rfl, fun x hx => State.misoBits_some hx n⟩,
    fun bytes cut h => mosiBytes_bits h bytes⟩

end Sys2Proof.Machine
end


section
namespace Sys2Proof.Machine
open Sys2Proof

/-! ## The touch-sweep (R162 to R164) -/

section
variable {s : State} {r : Record} {anew : Bool} {i : Nat}

theorem State.needsTouch_iff : s.needsTouch r = true ↔ s.pdu.sweep ≠ .idle ∧ r.periodTag ≠ s.pdu.period := by
  simp [State.needsTouch, State.sweepInProgress]

theorem State.hasRoom_one :
    s.hasRoom anew 1 = true ↔ (anew = true ∨ s.pdu.waiters = []) ∧ s.pdu.extract.length < 64 := by
  cases anew with
  | false =>
    rw [State.hasRoom_first, Nat.lt_iff_add_one_le]
    simp
  | true =>
    rw [State.hasRoom_anew, Nat.lt_iff_add_one_le]
    simp

theorem State.touch_free (hr : s.record? i = none) : s.touch anew i = some s := by
  rw [State.touch, hr]

theorem State.touch_current (hr : s.record? i = some r) (hn : ¬ s.needsTouch r = true) : s.touch anew i = some s := by
  rw [State.touch, hr]
  exact if_neg hn

theorem State.touch_made (hr : s.record? i = some r) (hn : s.needsTouch r = true) (hroom : s.hasRoom anew 1 = true) :
    s.touch anew i = some (s.closeRecord i r) := by
  rw [State.touch, hr]
  exact (if_pos hn).trans (if_pos hroom)

theorem State.touch_blocked (hr : s.record? i = some r) (hn : s.needsTouch r = true)
    (hroom : ¬ s.hasRoom anew 1 = true) : s.touch anew i = none := by
  rw [State.touch, hr]
  exact (if_pos hn).trans (if_neg hroom)

end

/-- Settles O24: the three outcomes are the branches of `State.touch`. -/
theorem touchSweep : Obligations.TouchSweep := by
  intro s anew i
  refine ⟨State.touch_free, fun r hr => ⟨fun h => ?_, fun hsweep htag => ?_⟩⟩
  · refine State.touch_current hr fun hn => ?_
    obtain ⟨hsweep, htag⟩ := State.needsTouch_iff.mp hn
    exact h.elim hsweep htag
  have hn := State.needsTouch_iff.mpr ⟨hsweep, htag⟩
  refine ⟨fun hturn hroom => ?_, fun hblocked => State.touch_blocked hr hn fun hroom => ?_⟩
  · rw [State.touch_made hr hn (State.hasRoom_one.mpr ⟨hturn, hroom⟩), State.closeRecord, State.writeEntry,
      if_pos (by exact hroom)]
    rfl
  · obtain ⟨hturn, hlt⟩ := State.hasRoom_one.mp hroom
    obtain ⟨rfl, hwaits⟩ | hfull := hblocked
    · exact hturn.elim Bool.false_ne_true hwaits
    · omega

/-! ## FORMAT (R11, R12) -/

section
variable {s : State} {code : Byte} {place : Nat}

theorem capacityOf_none (h : 3 < code.toNat) : capacityOf code = none := by
  unfold capacityOf
  rw [if_neg, if_neg, if_neg, if_neg] <;> rintro rfl <;> simp at h

theorem capacityOf_some (h : code.toNat ≤ 3) : capacityOf code = some (8192 * 2 ^ code.toNat) := by
  have hcode : ∀ n < 4, capacityOf (BitVec.ofNat 8 n) = some (8192 * 2 ^ (BitVec.ofNat 8 n).toNat) := by decide
  have hofNat : BitVec.ofNat 8 code.toNat = code := by simp
  rw [← hofNat]
  exact hcode _ (by omega)

/-- A slot with a message keeps a FORMAT out, and so do a sweep, a TRAFFIC RESET and a waiter (R11). -/
theorem State.trafficPresent_iff (hc : s.canonical = true) : s.trafficPresent = true ↔
    (∃ n, (s.message? n).isSome = true) ∨ s.pdu.sweep ≠ .idle ∨ s.msu.flush.isSome = true ∨ s.pdu.waiters ≠ [] := by
  have hslots := (State.rising_of_canonical hc).slots
  have hmessage : s.msu.slots.any (fun p => p.2.message.isSome) = true ↔ ∃ n, (s.message? n).isSome = true := by
    rw [List.any_eq_true]
    constructor
    · rintro ⟨⟨n, v⟩, hmem, hv⟩
      refine ⟨n, ?_⟩
      rwa [State.message?, State.slot, (Sparse.look_iff_mem hslots).mpr hmem]
    · rintro ⟨n, hn⟩
      cases hl : s.msu.slots.look n with
      | none => simp [State.message?, State.slot, hl] at hn
      | some v => exact ⟨(n, v), Sparse.mem_of_look hl, by simpa [State.message?, State.slot, hl] using hn⟩
  simp only [State.trafficPresent, Bool.or_eq_true, hmessage, or_assoc, State.sweepInProgress, State.resetting, bne_iff_ne,
    Bool.not_eq_true', List.isEmpty_eq_false_iff]

theorem takeFormat_out_of_range (h : 3 < code.toNat) : takeFormat code place s = (s, .now .badField []) := by
  rw [takeFormat, capacityOf_none h]

theorem takeFormat_traffic (h : code.toNat ≤ 3) (htraffic : s.trafficPresent = true) :
    takeFormat code place s = (s, .now .trafficPresent []) := by
  rw [takeFormat, capacityOf_some h]
  exact if_pos htraffic

theorem takeFormat_formatting (h : code.toNat ≤ 3) (htraffic : s.trafficPresent = false)
    (hstate : s.stu.state = .formatting) : takeFormat code place s = (s, .now .tableNotReady []) := by
  rw [takeFormat, capacityOf_some h]
  exact (if_neg (ne_true_of_eq_false htraffic)).trans (if_pos hstate)

theorem takeFormat_taken (h : code.toNat ≤ 3) (htraffic : s.trafficPresent = false)
    (hstate : s.stu.state ≠ .formatting) : takeFormat code place s = ({ s with stu :=
      { state := .formatting, capacity := 8192 * 2 ^ code.toNat, free := .empty, freeCount := 0, records := [],
        numberIndex := [], addressIndex := [], formatPlace := some place } }, .later) := by
  rw [takeFormat, capacityOf_some h]
  exact (if_neg (ne_true_of_eq_false htraffic)).trans (if_neg hstate)

/-- The table and the store once a FORMAT completes: all records and slots FREE (R12). -/
def State.formatted (s : State) : State :=
  { s with
    stu :=
      { state := .ready, capacity := s.stu.capacity, free := .full s.stu.capacity, freeCount := s.stu.capacity,
        records := [], numberIndex := [], addressIndex := [], formatPlace := none }
    msu := { s.msu with slots := [], free := .full Config.slotCount, freeCount := Config.slotCount, lowWater := false } }

theorem State.completeFormat_answers (hplace : s.stu.formatPlace = some place) :
    s.completeFormat = s.formatted.complete place .ok (nat3 s.stu.capacity) := by
  rw [State.completeFormat, hplace]
  rfl

theorem exec_format_now {tag : Byte} {why : Result} (hfull : s.responseFull = false)
    (ht : takeFormat code s.freshPlace s = (s, .now why [])) :
    exec (.format tag code) s = .next (s.respond ⟨0x10, tag, why, []⟩) :=
  congrArg Host.Outcome.next (State.start_now hfull ht)

end

/-- Settles O19: the branches of `takeFormat`, and the state that the completion leaves (`State.formatted`) with its
answer (`State.complete_found`). -/
theorem formatIsTakenAndCompletes : Obligations.FormatIsTakenAndCompletes := by
  refine ⟨fun tag code s hfull hc => ⟨fun h => ?_, fun h htraffic => ?_, fun h hslots hsweep hflush hwaiters => ?_⟩,
    fun s place g hstate hplace hg => ?_⟩
  · exact exec_format_now hfull (takeFormat_out_of_range h)
  · exact exec_format_now hfull (takeFormat_traffic h ((State.trafficPresent_iff hc).mpr htraffic))
  · have hnone : s.trafficPresent = false := by
      rw [Bool.eq_false_iff, Ne, State.trafficPresent_iff hc]
      simp [hslots, hsweep, hflush, hwaiters]
    refine ⟨fun hformatting => ?_, fun hidle => ?_⟩
    · exact exec_format_now hfull (takeFormat_formatting h hnone hformatting)
    · exact congrArg Host.Outcome.next (State.start_later hfull (takeFormat_taken h hnone hidle))
  · refine ⟨s.completeFormat, congrArg Host.Outcome.next (if_pos hstate), ?_⟩
    have hfound : s.formatted.clu.inProgress.find? (fun g => g.place == place) = some g := hg
    rw [State.completeFormat_answers hplace, State.complete_found .ok _ hfound]
    exact ⟨rfl, rfl, rfl, FreeList.full_toList _, rfl, rfl, rfl, fun _ => rfl, rfl, FreeList.full_toList _, rfl, rfl, rfl,
      rfl, rfl, rfl, rfl, rfl, rfl, rfl, rfl, rfl⟩

/-! ## ADD (R13, R14) -/

section
variable {s : State} {a : AddArgs} {i : Nat} {free : FreeList} {r : Record} {tag : Byte}

theorem State.record?_addRecord_same : (s.addRecord i free r).record? i = some r := Sparse.look_put_same ..

theorem State.record?_addRecord_other {j : Nat} (h : j ≠ i) : (s.addRecord i free r).record? j = s.record? j :=
  Sparse.look_put_other _ _ h

/-- The new record is at the head of the chain of its number, and so is found (R9, R14). -/
theorem State.findNumber_addRecord : (s.addRecord i free r).findNumber r.number = some i := by
  have hchain : chainAt (s.addRecord i free r).stu.numberIndex ((s.addRecord i free r).stu.numberBucket r.number) =
      i :: chainAt s.stu.numberIndex (s.stu.numberBucket r.number) := by
    have hbucket : (s.addRecord i free r).stu.numberBucket = s.stu.numberBucket := rfl
    have hindex : (s.addRecord i free r).stu.numberIndex = putChain s.stu.numberIndex (s.stu.numberBucket r.number)
        (i :: chainAt s.stu.numberIndex (s.stu.numberBucket r.number)) := rfl
    rw [hbucket, hindex, chainAt_putChain_same]
  rw [State.findNumber, hchain, List.find?_cons_of_pos]
  simp [State.record?_addRecord_same]

theorem State.findAddress_addRecord : (s.addRecord i free r).findAddress r.address = some i := by
  have hchain : chainAt (s.addRecord i free r).stu.addressIndex ((s.addRecord i free r).stu.addressBucket r.address) =
      i :: chainAt s.stu.addressIndex (s.stu.addressBucket r.address) := by
    have hbucket : (s.addRecord i free r).stu.addressBucket = s.stu.addressBucket := rfl
    have hindex : (s.addRecord i free r).stu.addressIndex = putChain s.stu.addressIndex (s.stu.addressBucket r.address)
        (i :: chainAt s.stu.addressIndex (s.stu.addressBucket r.address)) := rfl
    rw [hbucket, hindex, chainAt_putChain_same]
  rw [State.findAddress, hchain, List.find?_cons_of_pos]
  simp [State.record?_addRecord_same]

theorem chainHasRoom_eq_false {chain : List Nat} : chainHasRoom chain = false ↔ 12 ≤ chain.length := by
  rw [chainHasRoom, decide_eq_false_iff_not, not_lt, Config.chainLimit]

/-- ADD on the command link, when it passes its checks. -/
theorem takeAdd_made {cls : ServiceClass} {kind : PagerKind} {plan : Plan} (hs : s.stu.state = .ready)
    (hcls : classOf a.cls = some cls) (hkind : kindOf a.kind = some kind)
    (hplan : planOf a.plan a.amount.toNat = some plan) (hnumber : numberInRange a.number = true)
    (haddress : addressInRange a.address = true) (hzones : a.zones ≠ 0) (hfree : s.findNumber a.number.toNat = none)
    (hunused : s.findAddress a.address.toNat = none)
    (hnchain : (chainAt s.stu.numberIndex (s.stu.numberBucket a.number.toNat)).length < 12)
    (hachain : (chainAt s.stu.addressIndex (s.stu.addressBucket a.address.toNat)).length < 12)
    (htake : s.stu.free.take = some (i, free)) : takeAdd a s =
      (s.addRecord i free (addedRecord a cls kind plan s.pdu.period), .now .ok (nat2 i)) := by
  have hrooms : ¬ (chainHasRoom (chainAt s.stu.numberIndex (s.stu.numberBucket a.number.toNat)) = false ∨
      chainHasRoom (chainAt s.stu.addressIndex (s.stu.addressBucket a.address.toNat)) = false) := by
    rw [chainHasRoom_eq_false, chainHasRoom_eq_false]
    omega
  rw [takeAdd, State.ready_eq_true hs, hcls, hkind, hplan]
  simp only [hnumber, haddress, hzones, hfree, hunused, hrooms, htake, Bool.true_eq_false, or_self, if_false,
    Option.isSome_none, Bool.false_eq_true]

/-- The checks of an ADD in their order (R13): the first that fails gives the result. -/
def State.addFails (s : State) (a : AddArgs) (why : Result) : Prop :=
  if s.stu.state ≠ .ready then why = .tableNotReady
  else if numberInRange a.number = false ∨ addressInRange a.address = false ∨ 2 < a.cls.toNat ∨ 1 < a.kind.toNat ∨
     1 < a.plan.toNat ∨ a.zones = 0 then why = .badField
  else if (s.findNumber a.number.toNat).isSome then why = .numberInUse
  else if (s.findAddress a.address.toNat).isSome then why = .addressInUse
  else if 12 ≤ (chainAt s.stu.numberIndex (s.stu.numberBucket a.number.toNat)).length ∨
     12 ≤ (chainAt s.stu.addressIndex (s.stu.addressBucket a.address.toNat)).length then why = .chainFull
  else s.stu.free.take = none ∧ why = .tableFull

/-- A byte that is none of the codes of a field is above them. -/
theorem addCodes_out_of_range (h : ∀ cls kind plan, classOf a.cls = some cls → kindOf a.kind = some kind →
    planOf a.plan a.amount.toNat = some plan → False) : 2 < a.cls.toNat ∨ 1 < a.kind.toNat ∨ 1 < a.plan.toNat := by
  by_contra hrange
  simp only [not_or, not_lt] at hrange
  obtain ⟨hcls, hkind, hplan⟩ := hrange
  obtain ⟨cls, hcls⟩ := Option.isSome_iff_exists.mp ((classOf_isSome a.cls).trans (decide_eq_true hcls))
  obtain ⟨kind, hkind⟩ := Option.isSome_iff_exists.mp ((kindOf_isSome a.kind).trans (decide_eq_true hkind))
  obtain ⟨plan, hplan⟩ := Option.isSome_iff_exists.mp
    ((planOf_isSome a.plan a.amount.toNat).trans (decide_eq_true hplan))
  exact h cls kind plan hcls hkind hplan

theorem takeAdd_refused {why : Result} (h : s.addFails a why) : takeAdd a s = (s, .now why []) := by
  unfold State.addFails at h
  by_cases hs : s.stu.state = .ready
  swap
  · rw [if_pos hs] at h
    rw [takeAdd, if_pos (State.ready_eq_false hs), h]
  rw [if_neg (not_not.mpr hs)] at h
  rw [takeAdd, State.ready_eq_true hs, if_neg Bool.true_eq_false_eq_False]
  split
  next cls kind plan hcls hkind hplan =>
    have hc := (classOf_isSome a.cls).symm.trans (congrArg _ hcls)
    have hk := (kindOf_isSome a.kind).symm.trans (congrArg _ hkind)
    have hp := (planOf_isSome a.plan a.amount.toNat).symm.trans (congrArg _ hplan)
    simp only [Option.isSome_some, decide_eq_true_eq] at hc hk hp
    simp only [chainHasRoom_eq_false, hc.not_gt, hk.not_gt, hp.not_gt, false_or] at h ⊢
    split_ifs at h ⊢
    · rw [h]
    · rw [h]
    · rw [h]
    · rw [h]
    · obtain ⟨htake, rfl⟩ := h
      rw [htake]
  next hcodes =>
    have hout := addCodes_out_of_range fun cls kind plan => hcodes cls kind plan
    rw [if_pos (by tauto)] at h
    rw [h]

end

/-- Settles O20: the record is put at the index and at the head of both chains (`State.findNumber_addRecord`), and the
checks fail in their order (`takeAdd_refused`). -/
theorem addWritesRecord : Obligations.AddWritesRecord := by
  refine ⟨fun tag a s cls kind plan i free hfull hs hcls hkind hplan hnumber haddress hzones hunused hfree hnchain hachain
    htake => ?_, fun tag a s why hfull h => ?_⟩
  · have ht := takeAdd_made hs hcls hkind hplan hnumber haddress hzones hunused hfree hnchain hachain htake
    exact ⟨_, congrArg Host.Outcome.next (State.start_now hfull ht), State.record?_addRecord_same,
      State.findNumber_addRecord, State.findAddress_addRecord, rfl, rfl, fun j hj => State.record?_addRecord_other hj, rfl,
      rfl, rfl, rfl, rfl, rfl, rfl, rfl, rfl, rfl⟩
  · exact congrArg Host.Outcome.next (State.start_now hfull (takeAdd_refused h))

end Sys2Proof.Machine
end


section
namespace Sys2Proof.Machine
open Sys2Proof

/-! ## FIND and READ RECORD (R25, R26) -/

section
variable {s : State} {key : BitVec 24} {index : BitVec 16} {i : Nat} {r : Record}

theorem addressInRange_eq_false : addressInRange key = false ↔ key.toNat = 0 ∨ 1048575 < key.toNat := by
  rw [addressInRange, Bool.and_eq_false_iff, decide_eq_false_iff_not, decide_eq_false_iff_not, Config.addressMax]
  omega

theorem takeFindNumber_not_ready (h : s.stu.state ≠ .ready) : takeFindNumber key s = (s, .now .tableNotReady []) :=
  if_pos (State.ready_eq_false h)

theorem takeFindAddress_not_ready (h : s.stu.state ≠ .ready) : takeFindAddress key s = (s, .now .tableNotReady []) :=
  if_pos (State.ready_eq_false h)

theorem takeFindNumber_out_of_range (h : s.stu.state = .ready) (hkey : numberInRange key = false) :
    takeFindNumber key s = (s, .now .badField []) := by
  rw [takeFindNumber, State.ready_eq_true h, if_neg Bool.true_eq_false_eq_False, if_pos hkey]

theorem takeFindAddress_out_of_range (h : s.stu.state = .ready) (hkey : addressInRange key = false) :
    takeFindAddress key s = (s, .now .badField []) := by
  rw [takeFindAddress, State.ready_eq_true h, if_neg Bool.true_eq_false_eq_False, if_pos hkey]

theorem takeFindNumber_replies (h : s.stu.state = .ready) (hkey : ¬ numberInRange key = false) :
    takeFindNumber key s = (s, s.findReply (s.findNumber key.toNat)) := by
  rw [takeFindNumber, State.ready_eq_true h, if_neg Bool.true_eq_false_eq_False, if_neg hkey]

theorem takeFindAddress_replies (h : s.stu.state = .ready) (hkey : ¬ addressInRange key = false) :
    takeFindAddress key s = (s, s.findReply (s.findAddress key.toNat)) := by
  rw [takeFindAddress, State.ready_eq_true h, if_neg Bool.true_eq_false_eq_False, if_neg hkey]

theorem State.findReply_some (hr : s.record? i = some r) :
    s.findReply (some i) = .now .ok (nat2 i ++ nat1 r.state.code) := by
  rw [State.findReply, State.recordCode, hr]
  rfl

theorem takeReadRecord_not_ready (h : s.stu.state ≠ .ready) : takeReadRecord index s = (s, .now .tableNotReady []) :=
  if_pos (State.ready_eq_false h)

theorem takeReadRecord_out_of_range (h : s.stu.state = .ready) (hi : s.stu.capacity ≤ index.toNat) :
    takeReadRecord index s = (s, .now .badField []) := by
  rw [takeReadRecord, State.ready_eq_true h, if_neg Bool.true_eq_false_eq_False, if_pos hi]

theorem takeReadRecord_reads (h : s.stu.state = .ready) (hi : index.toNat < s.stu.capacity) :
    takeReadRecord index s = (s, .now .ok (s.snapshot index.toNat)) := by
  rw [takeReadRecord, State.ready_eq_true h, if_neg Bool.true_eq_false_eq_False, if_neg hi.not_ge]

/-- The snapshot of a record that is not FREE, field by field (R191). -/
theorem State.snapshot_some (hr : s.record? i = some r) : s.snapshot i =
    nat2 i ++ nat1 (match r.state with | .active => 1 | .suspended => 2 | .retiring => 3) ++ nat3 r.number ++
      nat3 r.address ++ nat1 (match r.cls with | .tone => 0 | .numeric => 1 | .alpha => 2) ++
      nat1 (match r.kind with | .oneWay => 0 | .twoWay => 1) ++ bytes2 r.zones ++
      nat1 (match r.presence with | .unknown => 0x00 | .here z => 0x10 + z | .away => 0x20) ++
      (match r.plan with | .prepaid balance => 0 :: nat3 balance | .account ceiling => 1 :: nat3 ceiling) ++
      nat3 r.pending ++ nat3 r.charge ++
      [(if r.saturated then 1#8 else 0#8) ||| (if r.closing then 2#8 else 0#8)] ++ nat2 r.allowance ++ nat2 r.used ++
      nat2 r.delivered ++ nat3 r.chars ++ nat2 r.periodTag ++ nat1 r.nextTag ++ nat1 r.live.length ++
      r.live.flatMap (fun n => nat2 n ++ nat1 (match s.message? n with | some m => m.tag | none => 0)) ++
      nat1 r.held.length ++ r.held.flatMap nat2 := by
  have hplan : nat1 r.plan.code ++ nat3 r.plan.amount =
      match r.plan with | .prepaid balance => 0 :: nat3 balance | .account ceiling => 1 :: nat3 ceiling := by
    cases r.plan <;> rfl
  have hmarks : nat1 ((if r.saturated then 1 else 0) + (if r.closing then 2 else 0)) =
      [(if r.saturated then 1#8 else 0#8) ||| (if r.closing then 2#8 else 0#8)] := by
    cases r.saturated <;> cases r.closing <;> rfl
  have htag : ∀ n, nat1 ((s.message? n).elim 0 (·.tag)) =
      nat1 (match s.message? n with | some m => m.tag | none => 0) := fun n => by
    cases s.message? n <;> rfl
  rw [State.snapshot, hr]
  simp only [hmarks, htag, ← hplan, List.append_assoc]
  rfl

/-- A snapshot is 39 bytes, with three for each live slot and two for each held one (R191). -/
theorem State.snapshot_length (hr : s.record? i = some r) :
    (s.snapshot i).length = 39 + 3 * r.live.length + 2 * r.held.length := by
  have hlive : (r.live.flatMap fun n => nat2 n ++ nat1 ((s.message? n).elim 0 (·.tag))).length = 3 * r.live.length :=
    length_flatMap_pieces (w := 3) (fun _ => rfl) _
  have hheld : (r.held.flatMap nat2).length = 2 * r.held.length := length_flatMap_pieces (w := 2) (fun _ => rfl) _
  rw [State.snapshot, hr]
  simp only [List.length_append, hlive, hheld]
  simp only [nat1, nat2, nat3, bytes2, bytes3, List.length_cons, List.length_nil]
  omega

end

/-- Settles O22: each command by the branches of its `take`, and the snapshot by `State.snapshot_some` and
`State.snapshot_length`. -/
theorem findAndReadRecord : Obligations.FindAndReadRecord := by
  refine ⟨fun tag key s hfull => ⟨fun hs => ⟨?_, ?_⟩, fun hs => ⟨fun h => ?_, fun h => ?_, fun hlow hhigh => ?_,
      fun hlow hhigh => ?_⟩⟩,
    fun tag index s hfull => ⟨fun hs => ?_, fun hs hi => ?_, fun hs hi hr => ?_, fun r bytes hs hi hr hbytes => ?_⟩⟩
  · exact congrArg Host.Outcome.next (State.start_now hfull (takeFindNumber_not_ready hs))
  · exact congrArg Host.Outcome.next (State.start_now hfull (takeFindAddress_not_ready hs))
  · exact congrArg Host.Outcome.next
      (State.start_now hfull (takeFindNumber_out_of_range hs (numberInRange_eq_false.mpr h)))
  · exact congrArg Host.Outcome.next
      (State.start_now hfull (takeFindAddress_out_of_range hs (addressInRange_eq_false.mpr h)))
  · have hreplies := takeFindNumber_replies (key := key) hs (mt numberInRange_eq_false.mp (by omega))
    refine ⟨fun hf => ?_, fun i r hf hr => ?_⟩ <;> rw [hf] at hreplies
    · exact congrArg Host.Outcome.next (State.start_now hfull hreplies)
    · rw [State.findReply_some hr] at hreplies
      exact congrArg Host.Outcome.next (State.start_now hfull hreplies)
  · have hreplies := takeFindAddress_replies (key := key) hs (mt addressInRange_eq_false.mp (by omega))
    refine ⟨fun hf => ?_, fun i r hf hr => ?_⟩ <;> rw [hf] at hreplies
    · exact congrArg Host.Outcome.next (State.start_now hfull hreplies)
    · rw [State.findReply_some hr] at hreplies
      exact congrArg Host.Outcome.next (State.start_now hfull hreplies)
  · exact congrArg Host.Outcome.next (State.start_now hfull (takeReadRecord_not_ready hs))
  · exact congrArg Host.Outcome.next (State.start_now hfull (takeReadRecord_out_of_range hs hi))
  · have hreads := takeReadRecord_reads hs hi
    rw [State.snapshot, hr] at hreads
    exact congrArg Host.Outcome.next (State.start_now hfull hreads)
  · have hsnapshot : s.snapshot index.toNat = bytes := (State.snapshot_some hr).trans hbytes.symm
    refine ⟨?_, hsnapshot ▸ State.snapshot_length hr⟩
    rw [← hsnapshot]
    exact congrArg Host.Outcome.next (State.start_now hfull (takeReadRecord_reads hs hi))

/-! ## ADJUST BALANCE (R69 to R71) -/

section
variable {s s₁ : State} {number : BitVec 24} {amount : BitVec 32} {place i : Nat} {r r₁ : Record}

/-- The two checks of an ADJUST BALANCE on the command alone. -/
def adjustInRange (number : BitVec 24) (amount : BitVec 32) : Prop :=
  1 ≤ number.toNat ∧ number.toNat ≤ 9999999 ∧ -16777215 ≤ amount.toInt ∧ amount.toInt ≤ 16777215

theorem adjustInRange.passes (h : adjustInRange number amount) : ¬ (numberInRange number = false ∨
    amount.toInt < -(Config.unitMax : Int) ∨ (Config.unitMax : Int) < amount.toInt) := by
  obtain ⟨hlow, hhigh, hleast, hmost⟩ := h
  rw [numberInRange_eq_false, Config.unitMax]
  omega

theorem takeAdjustBalance_not_ready (h : s.stu.state ≠ .ready) :
    takeAdjustBalance false place number amount s = (s, .now .tableNotReady []) := if_pos (State.ready_eq_false h)

theorem takeAdjustBalance_out_of_range (h : s.stu.state = .ready)
    (hrange : number.toNat = 0 ∨ 9999999 < number.toNat ∨ amount.toInt < -16777215 ∨ 16777215 < amount.toInt) :
    takeAdjustBalance false place number amount s = (s, .now .badField []) := by
  rw [takeAdjustBalance, State.ready_eq_true h, if_neg Bool.true_eq_false_eq_False, if_pos]
  rw [numberInRange_eq_false, Config.unitMax]
  omega

section
variable (h : s.stu.state = .ready) (hrange : adjustInRange number amount)
include h hrange

/-- The checks on the command passed, an ADJUST BALANCE looks for the record of the number. -/
theorem takeAdjustBalance_unknown (hf : s.findNumber number.toNat = none) :
    takeAdjustBalance false place number amount s = (s, .now .unknownSubscriber []) := by
  rw [takeAdjustBalance, State.ready_eq_true h, if_neg Bool.true_eq_false_eq_False, if_neg hrange.passes, hf]

theorem takeAdjustBalance_wrong_plan {ceiling : Nat} (hf : s.findNumber number.toNat = some i)
    (hr : s.record? i = some r) (hplan : r.plan = .account ceiling) :
    takeAdjustBalance false place number amount s = (s, .now .wrongPlan []) := by
  rw [takeAdjustBalance, State.ready_eq_true h, if_neg Bool.true_eq_false_eq_False, if_neg hrange.passes, hf]
  simp only [hr, hplan]

/-- Without room for the entry of its touch-sweep the ADJUST BALANCE waits (R71). -/
theorem takeAdjustBalance_waits {balance : Nat} (hf : s.findNumber number.toNat = some i) (hr : s.record? i = some r)
    (hplan : r.plan = .prepaid balance) (ht : s.touch false i = none) :
    takeAdjustBalance false place number amount s = (s.wait false (.command place (.adjust number amount)), .later) := by
  rw [takeAdjustBalance, State.ready_eq_true h, if_neg Bool.true_eq_false_eq_False, if_neg hrange.passes, hf]
  simp only [hr, hplan, ht]

theorem takeAdjustBalance_made {balance : Nat} (hf : s.findNumber number.toNat = some i) (hr : s.record? i = some r)
    (hplan : r.plan = .prepaid balance) (ht : s.touch false i = some s₁) (hr₁ : s₁.record? i = some r₁) :
    takeAdjustBalance false place number amount s =
      (s₁.putRecord i { r₁ with plan := .prepaid (adjustedBalance balance r.pending amount.toInt) },
        .now .ok (adjustReply i balance (adjustedBalance balance r.pending amount.toInt) r.pending)) := by
  rw [takeAdjustBalance, State.ready_eq_true h, if_neg Bool.true_eq_false_eq_False, if_neg hrange.passes, hf]
  simp only [hr, hplan, ht, State.updateRecord_eq hr₁]

end

/-- The new balance is the sum brought within pending and 16,777,215 (R70). -/
theorem adjustedBalance_eq {balance pending new : Nat} {amount : Int} (hpending : pending ≤ 16777215)
    (hnew : (new : Int) = if (balance : Int) + amount < pending then (pending : Int)
      else if 16777215 < (balance : Int) + amount then 16777215 else (balance : Int) + amount) :
    adjustedBalance balance pending amount = new := by
  rw [adjustedBalance, Config.unitMax]
  split_ifs at hnew <;> omega

end

/-- Settles O33: each answer is an outcome of `takeAdjustBalance`, and the new balance is `adjustedBalance_eq`. -/
theorem adjustBalanceClamps : Obligations.AdjustBalanceClamps := by
  intro tag number amount s hfull
  refine ⟨fun hs => ?_, fun hs h => ?_, fun hs hlow hhigh hleast hmost => ?_⟩
  · exact congrArg Host.Outcome.next (State.start_now hfull (takeAdjustBalance_not_ready hs))
  · exact congrArg Host.Outcome.next (State.start_now hfull (takeAdjustBalance_out_of_range hs h))
  have hrange : adjustInRange number amount := ⟨hlow, hhigh, hleast, hmost⟩
  refine ⟨fun hf => ?_, fun i r hf hr => ⟨fun ceiling hplan => ?_, fun balance hplan => ⟨fun ht => ?_,
    fun s₁ r₁ new ht hr₁ hnew hpending => ?_⟩⟩⟩
  · exact congrArg Host.Outcome.next (State.start_now hfull (takeAdjustBalance_unknown hs hrange hf))
  · exact congrArg Host.Outcome.next (State.start_now hfull (takeAdjustBalance_wrong_plan hs hrange hf hr hplan))
  · have hwaits := takeAdjustBalance_waits (place := s.freshPlace) hs hrange hf hr hplan ht
    exact congrArg Host.Outcome.next
      (State.start_later (take := fun place => takeAdjustBalance false place number amount) hfull hwaits)
  · have hmade := takeAdjustBalance_made (place := s.freshPlace) hs hrange hf hr hplan ht hr₁
    rw [adjustedBalance_eq hpending hnew] at hmade
    exact congrArg Host.Outcome.next (State.start_now hfull hmade)

/-! ## READ MESSAGE (R47) -/

section
variable {s : State} {reference : BitVec 16} {n : Nat} {m : Message}

theorem takeReadMessage_not_ready (h : s.stu.state ≠ .ready) :
    takeReadMessage reference s = (s, .now .tableNotReady []) := if_pos (State.ready_eq_false h)

theorem takeReadMessage_stale (h : s.stu.state = .ready) (hstale : s.currentSlot reference.toNat = none) :
    takeReadMessage reference s = (s, .now .staleReference []) := by
  rw [takeReadMessage, State.ready_eq_true h, if_neg Bool.true_eq_false_eq_False, hstale]
  rfl

theorem takeReadMessage_reads (h : s.stu.state = .ready) (hcurrent : s.currentSlot reference.toNat = some n)
    (hm : s.message? n = some m) : takeReadMessage reference s = (s, .now .ok (s.messageBytes m)) := by
  rw [takeReadMessage, State.ready_eq_true h, if_neg Bool.true_eq_false_eq_False, hcurrent, Option.bind_some, hm]

/-- The snapshot of a slot, field by field: an absent field is as many zero bytes as the field has (R189, R191). -/
theorem State.messageBytes_eq (s : State) (m : Message) : s.messageBytes m =
    nat1 m.place.code ++ nat2 m.owner ++
      (match s.record? m.owner with
        | some r => if r.state = .retiring then [0, 0, 0, 0] else 1 :: nat3 r.number
        | none => [0, 0, 0, 0]) ++
      nat1 m.tag ++ nat1 m.source.code ++ nat1 m.cls.code ++ nat1 m.kind.code ++ nat1 m.priority.code ++
      nat1 m.body.length ++ m.body ++ nat2 m.charge ++ flag1 m.allowanceUsed.isSome ++
      (match m.allowanceUsed with | some period => 1 :: nat2 period | none => [0, 0, 0]) ++
      nat1 m.attempts ++ flag1 m.aired ++ flag1 m.released ++ nat1 m.origin.code ++
      (match m.deadline with
        | some d => 1 :: bytes4 d ++ 1 :: bytes4 s.pdu.tick
        | none => [0, 0, 0, 0, 0, 0, 0, 0, 0, 0]) ++
      flag1 m.ackPending ++ flag1 m.cancelPending := by
  have hnumber : optionalBytes 3 nat3 ((s.record? m.owner).bind fun r =>
      if r.state = .retiring then none else some r.number) = (match s.record? m.owner with
        | some r => if r.state = .retiring then [0, 0, 0, 0] else 1 :: nat3 r.number
        | none => [0, 0, 0, 0]) := by
    cases s.record? m.owner with
    | none => rfl
    | some r =>
      dsimp only [Option.bind_some]
      split <;> rfl
  have hallowance : optionalBytes 2 nat2 m.allowanceUsed =
      (match m.allowanceUsed with | some period => 1 :: nat2 period | none => [0, 0, 0]) := by
    cases m.allowanceUsed <;> rfl
  have hdeadline : optionalBytes 4 bytes4 m.deadline ++ optionalBytes 4 bytes4 (m.deadline.map fun _ => s.pdu.tick) =
      (match m.deadline with
        | some d => 1 :: bytes4 d ++ 1 :: bytes4 s.pdu.tick
        | none => [0, 0, 0, 0, 0, 0, 0, 0, 0, 0]) := by
    cases m.deadline <;> rfl
  unfold State.messageBytes
  dsimp only
  rw [List.append_assoc _ (optionalBytes 4 bytes4 m.deadline), hnumber, hallowance, hdeadline]

end

/-- Settles O26: the branches of `takeReadMessage`, and the snapshot by `State.messageBytes_eq`. -/
theorem readMessageSnapshot : Obligations.ReadMessageSnapshot := by
  intro tag reference s hfull
  refine ⟨fun hs => ?_, fun hs hstale => ?_, fun m hs hm hreuse => ?_⟩
  · exact congrArg Host.Outcome.next (State.start_now hfull (takeReadMessage_not_ready hs))
  · exact congrArg Host.Outcome.next
      (State.start_now hfull (takeReadMessage_stale hs (State.currentSlot_stale hstale)))
  · have hreads := takeReadMessage_reads hs (State.currentSlot_eq hm hreuse) hm
    rw [State.messageBytes_eq] at hreads
    exact congrArg Host.Outcome.next (State.start_now hfull hreads)

end Sys2Proof.Machine
end


section
namespace Sys2Proof.Machine
open Sys2Proof

/-! ## The commands of dispatch (R121, R122, R126) -/

section
variable {s : State} {code value : Byte}

theorem switchOf_out_of_range (h : 1 < code.toNat) : switchOf code = none := by
  unfold switchOf
  rw [if_neg, if_neg] <;> rintro rfl <;> simp at h

theorem switchOf_bit (on : Bool) : switchOf (if on then 1 else 0) = some on := by cases on <;> rfl

theorem arbiterOf_out_of_range (h : 1 < code.toNat) : arbiterOf code = none := by
  unfold arbiterOf
  rw [if_neg, if_neg] <;> rintro rfl <;> simp at h

theorem takeHoldDispatch_out_of_range (h : 1 < value.toNat) : takeHoldDispatch value s = (s, .now .badField []) := by
  rw [takeHoldDispatch, switchOf_out_of_range h]

theorem takeHoldDispatch_set (on : Bool) : takeHoldDispatch (if on then 1 else 0) s =
    ({ s with dsu := { s.dsu with hold := on } },
      .now .ok (flag1 on ++ flag1 s.pins.ehold ++ flag1 s.dsu.sending.isSome)) := by
  rw [takeHoldDispatch, switchOf_bit]

theorem takeSetArbiter_out_of_range (h : 1 < value.toNat) : takeSetArbiter value s = (s, .now .badField []) := by
  rw [takeSetArbiter, arbiterOf_out_of_range h]

theorem State.arbiterWaits_eq (s : State) : s.arbiterWaits = decide (Waiter.arbiter ∈ s.pdu.waiters) := by
  rw [Bool.eq_iff_iff, State.arbiterWaits_iff, decide_eq_true_eq]

theorem State.completionWaits_eq (s : State) : s.completionWaits = decide (Waiter.completion ∈ s.pdu.waiters) := by
  rw [Bool.eq_iff_iff, State.completionWaits_iff, decide_eq_true_eq]

/-- DISPATCH STATUS with its buffers written out: an empty one is zero bytes (R126, R189). -/
theorem takeDispatchStatus_eq (s : State) : takeDispatchStatus s = (s, .now .ok
    (nat2 s.dsu.queues.urgent.length ++ nat2 s.dsu.queues.normal.length ++ nat2 s.dsu.queues.deferred.length ++
      nat2 s.dsu.queues.retry.length ++ nat1 s.dsu.mode.code ++ s.dsu.rotation.flatMap (fun q => nat1 q.code) ++
      (match s.dsu.staging with
        | some b => 1 :: (nat2 ((s.slot b.slot).reuse * 2048 + b.slot) ++ bytes2 b.frame.zones ++ nat1 b.frame.attempt)
        | none => [0, 0, 0, 0, 0, 0]) ++
      (match s.dsu.sending with
        | some b => 1 :: (nat2 ((s.slot b.slot).reuse * 2048 + b.slot) ++ bytes2 b.frame.zones ++ nat1 b.frame.attempt)
        | none => [0, 0, 0, 0, 0, 0]) ++
      flag1 s.dsu.hold ++ flag1 s.pins.ehold ++ flag1 s.pins.ready ++ flag1 s.dsu.outage ++ flag1 s.msu.flush.isSome ++
      flag1 (decide (Waiter.arbiter ∈ s.pdu.waiters)) ++ flag1 (decide (Waiter.completion ∈ s.pdu.waiters)) ++
      nat1 s.dsu.divider)) := by
  have hstaging : s.bufferBytes (s.dsu.staging.map fun b => (b.slot, b.frame)) = (match s.dsu.staging with
      | some b => 1 :: (nat2 ((s.slot b.slot).reuse * 2048 + b.slot) ++ bytes2 b.frame.zones ++ nat1 b.frame.attempt)
      | none => [0, 0, 0, 0, 0, 0]) := by
    cases s.dsu.staging <;> rfl
  have hsending : s.bufferBytes (s.dsu.sending.map fun b => (b.slot, b.frame)) = (match s.dsu.sending with
      | some b => 1 :: (nat2 ((s.slot b.slot).reuse * 2048 + b.slot) ++ bytes2 b.frame.zones ++ nat1 b.frame.attempt)
      | none => [0, 0, 0, 0, 0, 0]) := by
    cases s.dsu.sending <;> rfl
  rw [← hstaging, ← hsending, ← State.arbiterWaits_eq, ← State.completionWaits_eq]
  rfl

end

/-- Settles O43: each command by what its `take` answers. -/
theorem dispatchCommands : Obligations.DispatchCommands := by
  intro tag s hfull
  refine ⟨fun d => ?_, fun value h => ⟨?_, ?_⟩, fun on => ?_, ?_, ?_, ?_⟩
  · exact congrArg Host.Outcome.next (State.start_now (take := fun _ => takeSetTransmitter d) hfull rfl)
  · exact congrArg Host.Outcome.next (State.startTraffic_now hfull (takeHoldDispatch_out_of_range h))
  · exact congrArg Host.Outcome.next (State.start_now hfull (takeSetArbiter_out_of_range h))
  · exact congrArg Host.Outcome.next (State.startTraffic_now hfull (takeHoldDispatch_set on))
  · exact congrArg Host.Outcome.next (State.start_now (take := fun _ => takeSetArbiter 0) hfull rfl)
  · exact congrArg Host.Outcome.next (State.start_now (take := fun _ => takeSetArbiter 1) hfull rfl)
  · exact congrArg Host.Outcome.next (State.start_now (take := fun _ => takeDispatchStatus) hfull (takeDispatchStatus_eq s))

/-! ## The pins of dispatch (R113, R120 to R122) -/

theorem setZone_getLsbD (zones : ZoneSet) (z : Fin 16) (level : Bool) {k : Nat} (hk : k < 16) :
    (setZone zones z.val level).getLsbD k = if k = z.val then level else zones.getLsbD k := by
  cases level <;> by_cases h : k = z.val
  · subst h; simp [setZone]
  · simp [setZone, h]
    omega
  · subst h; simp [setZone]
  · simp [setZone, h]
    omega

/-- Settles O48: each row writes its level, and REJECT sets the note while a frame is being sent. -/
theorem pinEvents : Obligations.PinEvents := by
  intro level s
  refine ⟨rfl, rfl, fun z => ⟨_, rfl, fun k hk => setZone_getLsbD _ z level hk⟩, fun h => ?_, fun hsending hw => ?_⟩
  · have hnote : (s.dsu.refusal || (level && s.dsu.sending.isSome && !s.completionWaits)) = s.dsu.refusal := by
      obtain rfl | hnone | hw := h
      · simp
      · simp [hnone]
      · simp [State.completionWaits_iff.mpr hw]
    change Host.Outcome.next _ = _
    rw [hnote]
  · have hnote : (s.dsu.refusal || (true && s.dsu.sending.isSome && !s.completionWaits)) = true := by
      simp [hsending, Bool.eq_false_iff.mpr (mt State.completionWaits_iff.mp hw)]
    change Host.Outcome.next _ = _
    rw [hnote]

/-! ## SET RETRY and RETURN STATUS (R149, R150) -/

theorem clampBits_triple (a b c : Bool) :
    clampBits [a, b, c] = (if a then 1#8 else 0#8) ||| (if b then 2#8 else 0#8) ||| (if c then 4#8 else 0#8) := by
  revert a b c; decide

/-- Which values of the retry policy are out of their range (R149). -/
theorem clampBits_retry (w a h : Nat) : clampBits [decide (max 10 (min w 600) ≠ w), decide (max 1 (min a 7) ≠ a),
      decide (max 1 h ≠ h)] =
    (if w < 10 ∨ 600 < w then 1#8 else 0#8) ||| (if a < 1 ∨ 7 < a then 2#8 else 0#8) |||
      (if h = 0 then 4#8 else 0#8) := by
  have hw : max 10 (min w 600) ≠ w ↔ w < 10 ∨ 600 < w := by omega
  have ha : max 1 (min a 7) ≠ a ↔ a < 1 ∨ 7 < a := by omega
  have hh : max 1 h ≠ h ↔ h = 0 := by omega
  simp only [clampBits_triple, hw, ha, hh, decide_eq_true_eq]

theorem State.linkBEnabled_eq (s : State) : s.linkBEnabled = decide (s.rlb.state ≠ .disabled) := by
  rw [Bool.eq_iff_iff, decide_eq_true_eq]
  exact bne_iff_ne

/-- Settles O51: the clamped values by `clampBits_retry`, and the status by its fields. -/
theorem retryAndReturnStatus : Obligations.RetryAndReturnStatus := by
  refine ⟨fun tag aMax w0 hold s hfull => ?_, fun tag s hfull => ?_⟩
  · rw [← clampBits_retry]
    exact congrArg Host.Outcome.next (State.start_now (take := fun _ => takeSetRetry w0 aMax hold) hfull rfl)
  · refine congrArg Host.Outcome.next ((State.start_now (take := fun _ => takeReturnStatus) hfull rfl).trans
      (congrArg (fun params => s.respond ⟨0x64, tag, .ok, params⟩) ?_))
    rw [← State.linkBEnabled_eq]
    simp only [State.linkBytes, State.receiver, List.append_nil, List.append_assoc]
    cases s.aru.timed <;> rfl

/-! ## The timebase (R155 to R157) -/

/-- Settles O55: each command by the branches of its `take`. -/
theorem timebaseCommands : Obligations.TimebaseCommands := by
  intro tag s hfull
  refine ⟨fun p e => ⟨fun h => ?_, fun hp he => ?_⟩, fun minute => ?_, fun minute auto => ⟨fun h => ?_, fun h => ?_⟩⟩
  · exact congrArg Host.Outcome.next (State.start_now (take := fun _ => takeSetTimebase p e) hfull (if_pos h))
  · have hgood : ¬ (p = 0 ∨ 1 < e.toNat) := not_or.mpr ⟨hp, he.not_gt⟩
    exact congrArg Host.Outcome.next (State.start_now (take := fun _ => takeSetTimebase p e) hfull (if_neg hgood))
  · exact congrArg Host.Outcome.next (State.start_now (take := fun _ => takeSetClock minute) hfull rfl)
  · have hbad : takeSetClose minute auto s = (s, .now .badField []) := by rw [takeSetClose, switchOf_out_of_range h]
    exact congrArg Host.Outcome.next (State.start_now hfull hbad)
  · have hset : takeSetClose minute auto s = ({ s with pdu := { s.pdu with closeAt := minute.toNat, auto := decide (auto = 1) } },
        .now .ok (bytes3 minute ++ [auto])) := by
      have hbit : auto = 0 ∨ auto = 1 := by
        have h0 := byte_eq_iff (c := auto) (n := 0) (by decide)
        have h1 := byte_eq_iff (c := auto) (n := 1) (by decide)
        rcases Nat.le_one_iff_eq_zero_or_eq_one.mp h with hz | ho
        · exact .inl (h0.mpr hz)
        · exact .inr (h1.mpr ho)
      obtain rfl | rfl := hbit <;> rfl
    exact congrArg Host.Outcome.next (State.start_now hfull hset)

end Sys2Proof.Machine
end


section
namespace Sys2Proof.Machine
open Sys2Proof

/-! ## ENABLE LINE, DISABLE LINE and LINE STATUS (R99 to R101) -/

section
variable {s : State} {line : Byte} {n : Fin 4}

theorem takeEnableLine_no_line (h : 4 ≤ line.toNat) : takeEnableLine line s = (s, .now .badField []) := by
  rw [takeEnableLine, lineOf_eq_none h]

theorem takeDisableLine_no_line (h : 4 ≤ line.toNat) : takeDisableLine line s = (s, .now .badField []) := by
  rw [takeDisableLine, lineOf_eq_none h]

theorem takeLineStatus_no_line (h : 4 ≤ line.toNat) : takeLineStatus line s = (s, .now .badField []) := by
  rw [takeLineStatus, lineOf_eq_none h]

theorem State.linkBEnabled_iff : s.linkBEnabled = true ↔ s.rlb.state ≠ .disabled := by
  rw [State.linkBEnabled_eq, decide_eq_true_eq]

/-- A line enabled, the station polled with it (R99). -/
theorem Line.enable_eq (l : Line) : l.enable = { l with
    state := .idle, breakRun := 0, fifo := [], current := 0,
    polls := if l.mode = .polled then l.polls ++ [l.stations.getD 0 0] else l.polls } := by
  unfold Line.enable
  dsimp only
  split <;> rfl

theorem takeEnableLine_pins_in_use (hline : line.toNat = n.val) (hn : n = 3) (hb : s.rlb.state ≠ .disabled) :
    takeEnableLine line s = (s, .now .pinsInUse []) := by
  rw [takeEnableLine, lineOf_eq hline]
  exact if_pos ⟨hn, State.linkBEnabled_iff.mpr hb⟩

theorem takeEnableLine_disabled (hline : line.toNat = n.val) (hfree : n ≠ 3 ∨ s.rlb.state = .disabled)
    (hstate : (s.line n).state = .disabled) :
    takeEnableLine line s = (s.putLine n (s.line n).enable, .now .ok [1]) := by
  have hpins : ¬ (n = 3 ∧ s.linkBEnabled = true) := by rw [State.linkBEnabled_iff]; tauto
  rw [takeEnableLine, lineOf_eq hline]
  dsimp only
  rw [if_neg hpins, if_pos hstate, Line.enable_eq]
  rfl

theorem takeEnableLine_enabled (hline : line.toNat = n.val) (hfree : n ≠ 3 ∨ s.rlb.state = .disabled)
    (hstate : (s.line n).state ≠ .disabled) : takeEnableLine line s =
      (s.putLine n { s.line n with disablePending := false }, .now .ok (nat1 (s.line n).state.code)) := by
  have hpins : ¬ (n = 3 ∧ s.linkBEnabled = true) := by rw [State.linkBEnabled_iff]; tauto
  rw [takeEnableLine, lineOf_eq hline]
  dsimp only
  rw [if_neg hpins, if_neg hstate]

theorem takeDisableLine_disabled (hline : line.toNat = n.val) (hstate : (s.line n).state = .disabled) :
    takeDisableLine line s = (s, .now .ok [0]) := by
  rw [takeDisableLine, lineOf_eq hline]
  dsimp only
  rw [hstate]
  rfl

theorem takeDisableLine_quiet (hline : line.toNat = n.val)
    (hstate : (s.line n).state = .idle ∨ (s.line n).state = .down) :
    takeDisableLine line s = (s.putLine n (s.line n).disable, .now .ok [0]) := by
  rw [takeDisableLine, lineOf_eq hline]
  dsimp only
  obtain h | h := hstate <;> rw [h] <;> rfl

theorem takeDisableLine_busy (hline : line.toNat = n.val) (hstate : (s.line n).state = .assembling ∨
    (s.line n).state = .awaitingAcceptance ∨ (s.line n).state = .replying) :
    takeDisableLine line s = (s.putLine n { s.line n with disablePending := true }, .now .ok [1]) := by
  rw [takeDisableLine, lineOf_eq hline]
  dsimp only
  obtain h | h | h := hstate <;> rw [h] <;> rfl

theorem takeLineStatus_eq {l : Line} (hline : line.toNat = n.val) (hl : l = s.line n) :
    takeLineStatus line s = (s, .now .ok
      (nat1 l.state.code ++ flag1 l.disablePending ++ nat1 l.fifo.length ++ nat1 l.mode.code ++ nat2 l.n ++
        nat1 l.e ++ nat1 l.parity.code ++ nat1 l.stop ++ nat1 l.wait ++ nat1 l.stations.length ++
        l.stations.flatMap nat1 ++ (if l.mode = .polled then 1 :: nat1 (l.stations.getD l.current 0) else [0, 0]) ++
        (if n = 3 then flag1 (decide (s.rlb.state ≠ .disabled)) else []))) := by
  have hstation : optionalBytes 1 nat1 (if l.mode = .polled then some (l.stations.getD l.current 0) else none) =
      (if l.mode = .polled then 1 :: nat1 (l.stations.getD l.current 0) else [0, 0]) := by
    split <;> rfl
  subst hl
  rw [takeLineStatus, lineOf_eq hline, ← hstation, ← State.linkBEnabled_eq]

end

/-- Settles O35: each command by the branches of its `take`. -/
theorem lineEnableDisableStatus : Obligations.LineEnableDisableStatus := by
  intro tag line s hfull
  refine ⟨fun h => ⟨?_, ?_, ?_⟩, ?_⟩
  · exact congrArg Host.Outcome.next (State.start_now hfull (takeEnableLine_no_line h))
  · exact congrArg Host.Outcome.next (State.start_now hfull (takeDisableLine_no_line h))
  · exact congrArg Host.Outcome.next (State.start_now hfull (takeLineStatus_no_line h))
  rintro n l hline rfl
  refine ⟨fun hn hb => ?_, fun hfree => ⟨fun hstate => ?_, fun hstate => ?_⟩, fun hstate => ?_, fun hstate => ?_,
    fun hstate => ?_, ?_⟩
  · exact congrArg Host.Outcome.next (State.start_now hfull (takeEnableLine_pins_in_use hline hn hb))
  · rw [← Line.enable_eq]
    exact congrArg Host.Outcome.next (State.start_now hfull (takeEnableLine_disabled hline hfree hstate))
  · exact congrArg Host.Outcome.next (State.start_now hfull (takeEnableLine_enabled hline hfree hstate))
  · exact congrArg Host.Outcome.next (State.start_now hfull (takeDisableLine_disabled hline hstate))
  · exact congrArg Host.Outcome.next (State.start_now hfull (takeDisableLine_quiet hline hstate))
  · exact congrArg Host.Outcome.next (State.start_now hfull (takeDisableLine_busy hline hstate))
  · exact congrArg Host.Outcome.next (State.start_now hfull (takeLineStatus_eq hline rfl))

/-! ## The timers, the polls and the end of a reply (R89, R95 to R97) -/

section
variable {s : State} {n : Fin 4} {k : Nat} {p : Nat} {rest : List Nat}

/-- The end of an exchange, written out. -/
theorem Line.endExchange_eq (l : Line) : l.endExchange = if l.disablePending then { l with
      state := .disabled, fifo := [], frame := none, request := none, interTimer := none, stationTimer := none,
      reply := [], polls := l.polls.take 1, disablePending := false }
    else Line.moveOn { l with state := .idle, frame := none, request := none, interTimer := none, reply := [] } := rfl

theorem Line.moveOn_polled {l : Line} (h : l.mode = .polled) : l.moveOn = { l with
    stationTimer := none, current := (l.current + 1) % l.stations.length,
    polls := l.polls ++ [l.stations.getD ((l.current + 1) % l.stations.length) 0] } := if_pos h

theorem exec_pollSent {t : Option Nat} (hpolls : (s.line n).polls = p :: rest)
    (ht : t = if rest = [] ∧ (s.line n).state = .idle ∧ (s.line n).mode = .polled then some 0
      else (s.line n).stationTimer) :
    exec (.pollSent n) s = .next (s.putLine n { s.line n with polls := rest, stationTimer := t }) := by
  subst ht
  change execPollSent n s = _
  rw [execPollSent]
  dsimp only
  rw [hpolls]

end

/-- Settles O38: each row by its condition, and the end of an exchange by `Line.endExchange_eq`. -/
theorem lineTimersAndReplies : Obligations.LineTimersAndReplies := by
  intro n s l ended hl hended
  subst hl
  rw [← Line.endExchange_eq] at hended
  subst hended
  refine ⟨fun k hstate hk => ⟨fun hdue => ?_, fun hearly => ?_⟩, fun hstate => ?_, fun hstate => ?_, fun hstate => ?_,
    fun p hpolls hstate hmode => ?_, fun p rest hpolls hother => ?_, fun k hstate hmode hk => ⟨fun hdue => ?_,
    fun hearly => ?_⟩, fun hnone => ?_⟩
  · exact congrArg Host.Outcome.next (if_pos ⟨hstate, by rw [hk]; exact decide_eq_true hdue⟩)
  · refine congrArg Host.Outcome.next (if_neg fun h => ?_)
    simp [hk, Config.interCharacterTicks, hearly.not_ge] at h
  · exact congrArg Host.Outcome.next (if_neg fun h => hstate h.1)
  · exact congrArg Host.Outcome.next (if_pos hstate)
  · exact congrArg Host.Outcome.next (if_neg hstate)
  · exact exec_pollSent hpolls (if_pos ⟨rfl, hstate, hmode⟩).symm
  · exact exec_pollSent hpolls (if_neg (by tauto)).symm
  · rw [← Line.moveOn_polled hmode]
    exact congrArg Host.Outcome.next (if_pos ⟨hstate, hmode, by simpa [hk] using hdue⟩)
  · refine congrArg Host.Outcome.next (if_neg fun h => ?_)
    simp [hk, hearly.not_ge] at h
  · refine congrArg Host.Outcome.next (if_neg fun h => ?_)
    simp [hnone] at h

end Sys2Proof.Machine
end


section
namespace Sys2Proof.Machine
open Sys2Proof

/-! ## The frame in assembly (R80, R82, R85 to R90) -/

section
variable {s : State} {n : Fin 4} {l : Line} {c : RxChar} {rest : List RxChar} {f : Frame} {sub : Submission} {gap : Bool}

theorem Line.applyGap_other (h : l.state ≠ .assembling) : l.applyGap gap = l := if_neg fun hgap => h hgap.2

theorem Line.applyGap_assembling (h : l.state = .assembling) (hf : l.frame = some f) :
    l.applyGap gap = { l with frame := some { f with spoiled := f.spoiled || gap } } := by
  cases gap with
  | false => rw [Line.applyGap, if_neg (by simp), Bool.or_false, ← hf]
  | true =>
    rw [Line.applyGap, if_pos ⟨rfl, h⟩, hf, Bool.or_true]
    rfl

/-! ### One character, the head of the FIFO already taken -/

theorem Line.takeCharacter_idle (hfifo : l.fifo = c :: rest) (hstate : l.state = .idle) :
    l.takeCharacter = (Line.takeIdle { l with fifo := rest } c).applyGap c.gap := by
  rw [Line.takeCharacter, hfifo]
  dsimp only
  rw [hstate]

theorem Line.takeCharacter_assembling (hfifo : l.fifo = c :: rest) (hstate : l.state = .assembling)
    (hf : l.frame = some f) :
    l.takeCharacter = (Line.takeAssembling { l with fifo := rest } f c).applyGap c.gap := by
  rw [Line.takeCharacter, hfifo]
  dsimp only
  rw [hstate, hf]

theorem exec_characterTaken_idle (hfifo : (s.line n).fifo = c :: rest) (hl : l = { s.line n with fifo := rest })
    (hstate : l.state = .idle) : exec (.characterTaken n) s = .next (s.putLine n ((l.takeIdle c).applyGap c.gap)) := by
  subst hl
  rw [← Line.takeCharacter_idle hfifo hstate]
  exact congrArg Host.Outcome.next (if_pos ⟨.inl hstate, by simp [hfifo]⟩)

theorem exec_characterTaken_assembling (hfifo : (s.line n).fifo = c :: rest) (hl : l = { s.line n with fifo := rest })
    (hstate : l.state = .assembling) (hf : l.frame = some f) :
    exec (.characterTaken n) s = .next (s.putLine n ((l.takeAssembling f c).applyGap c.gap)) := by
  subst hl
  rw [← Line.takeCharacter_assembling hfifo hstate hf]
  exact congrArg Host.Outcome.next (if_pos ⟨.inr hstate, by simp [hfifo]⟩)

/-- A good lead begins a frame, spoiled at once by a gap mark (R82, R85). -/
theorem Line.beginFrame_applyGap : l.beginFrame.applyGap gap = { l with
    state := .assembling, frame := some ⟨[], 1, 0, gap, false⟩, interTimer := some 0, stationTimer := none } :=
  Line.applyGap_assembling (l := l.beginFrame) (f := .begun false) rfl rfl

/-- A character placed goes on with the frame, spoiled by a gap mark (R82, R86). -/
theorem Line.placed_applyGap (hstate : l.state = .assembling) :
    Line.applyGap { l with frame := some f, interTimer := some 0 } gap =
      { l with frame := some { f with spoiled := f.spoiled || gap }, interTimer := some 0 } :=
  Line.applyGap_assembling (l := { l with frame := some f, interTimer := some 0 }) hstate rfl

/-- The line is left with a reply, which no gap mark reaches (R82, R95). -/
theorem Line.refuse_applyGap : (l.sendReply (refusedReply 0x45)).applyGap gap = { l with
    state := .replying, frame := none, request := none, interTimer := none, reply := [0x15, 0x45, 0x04] } :=
  Line.applyGap_other nofun

/-! ### While IDLE -/

theorem Line.takeIdle_lead (hdata : c.data = 0x01) (hbad : c.bad = false) : l.takeIdle c = l.beginFrame :=
  if_pos ⟨hdata, hbad⟩

theorem Line.takeIdle_end (hdata : c.data = 0x05) (hbad : c.bad = false) : l.takeIdle c = l.moveOn := by
  rw [Line.takeIdle, if_neg (by simp [hdata]), if_pos ⟨hdata, hbad⟩]

theorem Line.takeIdle_other (h : c.bad = true ∨ (c.data ≠ 0x01 ∧ c.data ≠ 0x05)) : l.takeIdle c = l := by
  rw [Line.takeIdle, if_neg, if_neg] <;> rintro ⟨hdata, hbad⟩ <;> simp [hdata, hbad] at h

/-! ### While ASSEMBLING -/

theorem Line.takeAssembling_lead (ht : f.terminated = false) (hdata : c.data = 0x01) (hbad : c.bad = false) :
    l.takeAssembling f c = l.beginFrame := by
  rw [Line.takeAssembling, if_neg (ne_true_of_eq_false ht), if_pos ⟨hdata, hbad⟩]

/-- A character that is no good lead is placed in the frame, which the 97th makes overlong (R86, R88). -/
theorem Line.takeAssembling_placed (ht : f.terminated = false) (h : ¬ (c.data = 0x01 ∧ c.bad = false)) :
    l.takeAssembling f c = if 97 ≤ f.count + 1 ∧ (f.place c).terminated = false then l.sendReply (refusedReply 0x45)
      else { l with frame := some (f.place c), interTimer := some 0 } := by
  rw [Line.takeAssembling, if_neg (ne_true_of_eq_false ht), if_neg h]
  rfl

theorem not_lead (h : c.bad = true ∨ (c.data ≠ 0x01 ∧ c.data ≠ 0x04)) : ¬ (c.data = 0x01 ∧ c.bad = false) := by
  rintro ⟨hdata, hbad⟩
  simp [hdata, hbad] at h

theorem Frame.place_terminator (hdata : c.data = 0x04) (hbad : c.bad = false) : f.place c = { f with
    count := f.count + 1, sum := (f.sum + 4) % 128, terminated := true } := by
  simp [Frame.place, hdata, hbad]

theorem Frame.place_other (ht : f.terminated = false) (h : c.bad = true ∨ c.data ≠ 0x04) : f.place c = { f with
    chars := f.chars ++ [c.data], count := f.count + 1, sum := (f.sum + c.data.toNat) % 128,
    spoiled := f.spoiled || c.bad } := by
  have hnot : (c.data == 0x04 && !c.bad) = false := by
    rw [Bool.and_eq_false_iff, beq_eq_false_iff_ne, Bool.not_eq_false']
    exact h.symm
  rw [Frame.place, hnot, ht]
  rfl

theorem Line.endFrame_submits (hsub : f.submission = some sub) (hspoiled : f.spoiled = false) (hbad : c.bad = false)
    (hsum : c.data.toNat = f.sum) :
    l.endFrame f c = { l.clearExchange with state := .awaitingAcceptance, request := some sub } := by
  rw [Line.endFrame, hsub]
  simp [hspoiled, hbad, hsum]

theorem Line.endFrame_refuses (h : f.submission = none ∨ f.spoiled = true ∨ c.bad = true ∨ c.data.toNat ≠ f.sum) :
    l.endFrame f c = l.sendReply (refusedReply 0x45) := by
  unfold Line.endFrame
  split
  next sub hsub =>
    have hfaulty : (f.spoiled || c.bad || c.data.toNat != f.sum) = true := by
      obtain hnone | h | h | h := h
      · rw [hsub] at hnone; cases hnone
      · simp [h]
      · simp [h]
      · simp [h]
    exact if_pos hfaulty
  next => rfl

end

/-! ### The submission of a frame (R86, R90) -/

section
variable {f : Frame} {d body : List Byte} {p : Byte}

theorem isDigit_iff {b : Byte} : isDigit b = true ↔ 0x30 ≤ b.toNat ∧ b.toNat ≤ 0x39 := by
  simp [isDigit]

theorem priorityOfChar_of {pr : Priority} (h : (p = 0x55 ∧ pr = .urgent) ∨ (p = 0x4E ∧ pr = .normal) ∨
    (p = 0x44 ∧ pr = .deferred)) : priorityOfChar p = some pr := by
  obtain ⟨rfl, rfl⟩ | ⟨rfl, rfl⟩ | ⟨rfl, rfl⟩ := h <;> rfl

theorem priorityOfChar_none (hu : p ≠ 0x55) (hn : p ≠ 0x4E) (hd : p ≠ 0x44) : priorityOfChar p = none := by
  rw [priorityOfChar, if_neg hu, if_neg hn, if_neg hd]

theorem Frame.submission_good {pr : Priority} (hd : d.length = 7) (hdigits : ∀ x ∈ d, 0x30 ≤ x.toNat ∧ x.toNat ≤ 0x39)
    (hbody : body.length ≤ 80) (hchars : f.chars = 0x50 :: (d ++ p :: body)) (hp : priorityOfChar p = some pr) :
    f.submission = some ⟨decimal d, pr, body⟩ := by
  have hkind : f.kind = some 0x50 := by rw [Frame.kind, hchars]; rfl
  have hds : f.digits = d := by
    rw [Frame.digits, hchars, List.drop_succ_cons, List.drop_zero, ← hd, List.take_left]
  have hpr : f.priorityChar = some p := by
    rw [Frame.priorityChar, hchars, List.getElem?_cons_succ, List.getElem?_append_right (by omega), hd]
    rfl
  have hb : f.body = body := by
    rw [Frame.body, hchars, List.drop_succ_cons, show 8 = d.length + 1 by omega, List.drop_length_add_append]
    rfl
  have hlen : 9 ≤ f.chars.length := by
    rw [hchars]
    simp only [List.length_cons, List.length_append]
    omega
  have hall : f.digits.all isDigit = true := by
    rw [hds, List.all_eq_true]
    exact fun x hx => isDigit_iff.mpr (hdigits x hx)
  rw [Frame.submission, if_pos ⟨hkind, hlen, hall, by rw [hb]; exact hbody⟩, hpr, hds, hb, Option.bind_some, hp]
  rfl

theorem Frame.submission_malformed (h : f.chars.head? ≠ some 0x50 ∨ f.chars.length < 9 ∨ 89 < f.chars.length ∨
    (∃ x ∈ (f.chars.drop 1).take 7, x.toNat < 0x30 ∨ 0x39 < x.toNat) ∨
    (∃ p, f.chars[8]? = some p ∧ p ≠ 0x55 ∧ p ≠ 0x4E ∧ p ≠ 0x44)) : f.submission = none := by
  unfold Frame.submission
  split
  next hgood =>
    obtain ⟨hkind, hlen, hall, hbody⟩ := hgood
    obtain hhead | hshort | hlong | ⟨x, hx, hdigit⟩ | ⟨p, hp, hu, hn, hd⟩ := h
    · exact absurd (List.head?_eq_getElem?.trans hkind) hhead
    · omega
    · rw [Frame.body, List.length_drop, Config.bodyLimit] at hbody
      omega
    · have := isDigit_iff.mp (List.all_eq_true.mp hall x hx)
      omega
    · rw [Frame.priorityChar, hp, Option.bind_some, priorityOfChar_none hu hn hd]
      rfl
  next => rfl

end

/-- Settles O37: the character by the state of the line, one lemma for each kind of character, and the submission by
`Frame.submission_good` and `Frame.submission_malformed`. -/
theorem frameAssembly : Obligations.FrameAssembly := by
  refine ⟨fun n s l c rest hfifo hl => ⟨fun hidle hassembling => ?_, fun hstate => ⟨fun hdata hbad => ?_,
      fun hdata hbad => ?_, fun hother => ?_⟩, fun f hstate hf => ⟨fun ht hdata hbad => ?_, fun ht hdata hbad => ?_,
      fun ht hother => ⟨fun hcount => ?_, fun hcount => ?_⟩, fun ht => ⟨fun sub hsub hspoiled hbad hsum => ?_,
      fun hfaulty => ?_⟩⟩⟩,
    fun f d p pr body hd hdigits hbody hchars hp =>
      Frame.submission_good hd hdigits hbody hchars (priorityOfChar_of hp),
    fun f h => Frame.submission_malformed h⟩
  · subst hl
    exact congrArg Host.Outcome.next (if_neg fun h => h.1.elim hidle hassembling)
  · rw [exec_characterTaken_idle hfifo hl hstate, Line.takeIdle_lead hdata hbad, Line.beginFrame_applyGap]
  · have hkeeps : l.moveOn.state ≠ .assembling := by rw [Line.moveOn_state, hstate]; exact nofun
    rw [exec_characterTaken_idle hfifo hl hstate, Line.takeIdle_end hdata hbad, Line.applyGap_other hkeeps]
  · have hkeeps : l.state ≠ .assembling := by rw [hstate]; exact nofun
    rw [exec_characterTaken_idle hfifo hl hstate, Line.takeIdle_other hother, Line.applyGap_other hkeeps]
  · rw [exec_characterTaken_assembling hfifo hl hstate hf, Line.takeAssembling_lead ht hdata hbad,
      Line.beginFrame_applyGap, ← hstate]
  · rw [exec_characterTaken_assembling hfifo hl hstate hf, Line.takeAssembling_placed ht (by simp [hdata]),
      Frame.place_terminator hdata hbad, if_neg (by simp), Line.placed_applyGap hstate]
  · rw [exec_characterTaken_assembling hfifo hl hstate hf, Line.takeAssembling_placed ht (not_lead hother),
      Frame.place_other ht (hother.imp_right And.right), if_neg (by omega), Line.placed_applyGap hstate]
  · rw [exec_characterTaken_assembling hfifo hl hstate hf, Line.takeAssembling_placed ht (not_lead hother),
      Frame.place_other ht (hother.imp_right And.right), if_pos ⟨by omega, ht⟩, Line.refuse_applyGap]
  · have hends : l.takeAssembling f c = l.endFrame f c := if_pos ht
    rw [exec_characterTaken_assembling hfifo hl hstate hf, hends, Line.endFrame_submits hsub hspoiled hbad hsum,
      Line.applyGap_other (by simp)]
    rfl
  · have hends : l.takeAssembling f c = l.endFrame f c := if_pos ht
    rw [exec_characterTaken_assembling hfifo hl hstate hf, hends, Line.endFrame_refuses hfaulty, Line.refuse_applyGap]

end Sys2Proof.Machine
end


section
namespace Sys2Proof.Machine
open Sys2Proof

/-! ## The checks of an acceptance (R91, R92) -/

section
variable {s : State} {sub : Submission} {i : Nat} {r : Record}

theorem State.judge_closed (h : s.msu.flush.isSome = true ∨ s.stu.state ≠ .ready) :
    s.judge sub = .fail .serviceClosed [] := by
  have hclosed : (s.resetting || !s.ready) = true := by
    obtain h | h := h
    · rw [State.resetting, h, Bool.true_or]
    · rw [State.ready_eq_false h, Bool.not_false, Bool.or_true]
  rw [State.judge, if_pos hclosed]

/-- The service open, an acceptance looks for the record of its number. -/
theorem State.judge_unknown (hflush : s.msu.flush = none) (hs : s.stu.state = .ready)
    (hf : s.findNumber sub.number = none) : s.judge sub = .fail .unknownSubscriber [] := by
  rw [State.judge, State.resetting_iff.mpr hflush, State.ready_eq_true hs, hf]
  rfl

/-- Checks 3 to 7 of an acceptance, on the record that its number names. -/
def State.judgeRecord (s : State) (sub : Submission) (i : Nat) (r : Record) : Judgement :=
  if r.state ≠ .active then .fail .notInService []
  else if bodyValid r.cls sub.body = false then .fail .bodyInvalid []
  else if 16 ≤ r.live.length then .fail .subscriberFull []
  else if s.storeRoom sub.priority = false then .fail .storeFull []
  else if (s.asTouched r).creditPasses (s.chu.priceFor (s.asTouched r) sub.body.length sub.priority) then
    .pass i (s.chu.priceFor (s.asTouched r) sub.body.length sub.priority)
  else .fail (s.asTouched r).creditRefusal
    (nat2 (s.chu.priceFor (s.asTouched r) sub.body.length sub.priority) ++ nat3 (s.asTouched r).available)

theorem State.judge_found (hflush : s.msu.flush = none) (hs : s.stu.state = .ready)
    (hf : s.findNumber sub.number = some i) (hr : s.record? i = some r) : s.judge sub = s.judgeRecord sub i r := by
  rw [State.judge, State.resetting_iff.mpr hflush, State.ready_eq_true hs, hf]
  simp only [hr]
  rfl

/-- The store has room: above 64 free slots, or one for an URGENT page (R37). -/
theorem State.storeRoom_iff {p : Priority} :
    s.storeRoom p = true ↔ 0 < s.msu.freeCount ∧ (64 < s.msu.freeCount ∨ p = .urgent) := by
  rw [State.storeRoom, Bool.and_eq_true, Bool.or_eq_true, beq_iff_eq, decide_eq_true_eq, decide_eq_true_eq,
    Config.lowWater, or_comm]

/-- The record as the touch-sweep it needs would leave it (R56). -/
theorem State.asTouched_eq (s : State) (r : Record) : s.asTouched r =
    if s.pdu.sweep ≠ .idle ∧ r.periodTag ≠ s.pdu.period then { r with
      used := 0, delivered := 0, chars := 0, charge := 0, saturated := false, periodTag := s.pdu.period } else r := by
  rw [State.asTouched]
  exact if_congr State.needsTouch_iff rfl rfl

end

theorem bodyValid_tone {body : List Byte} : bodyValid .tone body = true ↔ body = [] := List.isEmpty_iff

theorem bodyValid_numeric {body : List Byte} : bodyValid .numeric body = true ↔ body.length ≤ 24 ∧
    ∀ x ∈ body, (0x30 ≤ x.toNat ∧ x.toNat ≤ 0x39) ∨ x = 0x20 ∨ x = 0x2D ∨ x = 0x2E := by
  simp only [bodyValid, Bool.and_eq_true, decide_eq_true_eq, List.all_eq_true, Bool.or_eq_true, beq_iff_eq, or_assoc]

theorem bodyValid_alpha {body : List Byte} : bodyValid .alpha body = true ↔ body.length ≤ 80 ∧
    ∀ x ∈ body, 0x20 ≤ x.toNat ∧ x.toNat ≤ 0x7E := by
  rw [bodyValid, Bool.and_eq_true, decide_eq_true_iff, List.all_eq_true, Config.bodyLimit]
  simp only [Bool.and_eq_true, decide_eq_true_eq]

/-- Settles O39: the first two checks by `State.judge_closed` and `State.judge_unknown`, and the others as the branches
of `State.judgeRecord`. -/
theorem acceptanceChecks : Obligations.AcceptanceChecks := by
  refine ⟨fun s sub => ⟨State.judge_closed, fun hflush hs => ⟨State.judge_unknown hflush hs, fun i r hf hr => ?_⟩⟩,
    fun body => ⟨bodyValid_tone, bodyValid_numeric, bodyValid_alpha⟩⟩
  rw [State.judge_found hflush hs hf hr, State.judgeRecord]
  refine ⟨fun hstate => ?_, fun hstate hbody => ?_, fun hstate hbody hlive => ?_, fun hstate hbody hlive hroom => ?_,
    fun t c hstate hbody hlive hfree hroom ht hc => ?_⟩
  · rw [if_pos hstate]
  · rw [if_neg (not_not.mpr hstate), if_pos hbody]
  · rw [if_neg (not_not.mpr hstate), if_neg (ne_true_of_eq_false · hbody), if_pos hlive]
  · rw [if_neg (not_not.mpr hstate), if_neg (ne_true_of_eq_false · hbody), if_neg hlive.not_ge, if_pos]
    rw [Bool.eq_false_iff, Ne, State.storeRoom_iff]
    rintro ⟨hpos, habove⟩
    obtain hzero | ⟨hlow, hpriority⟩ := hroom
    · exact hpos.ne' hzero
    · exact habove.elim hlow.not_gt hpriority
  · obtain rfl : t = s.asTouched r := ht.trans (s.asTouched_eq r).symm
    subst hc
    have hstore : ¬ s.storeRoom sub.priority = false := by
      rw [State.storeRoom_iff.mpr ⟨hfree, hroom⟩]
      exact Bool.true_eq_false_eq_False
    rw [if_neg (not_not.mpr hstate), if_neg (ne_true_of_eq_false · hbody), if_neg hlive.not_ge, if_neg hstore]
    exact ⟨fun hpass => if_pos hpass, fun hfail => if_neg (ne_true_of_eq_false hfail)⟩

end Sys2Proof.Machine
end


section
namespace Sys2Proof.Machine
open Sys2Proof

/-! ## Nothing is left undone

A settled state is one in which neither the traffic nor the sweep has anything left to do (`State.Calm`) and no queued
command could start (`State.Waiting`). The rows that end in `State.afterTraffic` make the state calm again, and the
others leave what these properties read as it was. -/

/-- What the clauses of `State.settled` on the traffic say: no take, move, outage mark or completion of a TRAFFIC RESET is
left over. -/
def State.still (s : State) : Bool :=
  s.dsu.rotationGood && !s.takeAllowed && !s.moveAllowed && !s.outageDue && !(s.dsu.outage && decide (s.liveZones ≠ 0)) &&
    match s.msu.flush with
    | some f => !s.resetDone f
    | none => true

/-- The sweep is stalled and could resume (R161). -/
def State.Stuck (s : State) : Prop := s.pdu.sweep = .stalled ∧ s.sweepBlocked = false

/-- Nothing is left over but perhaps a queued command. -/
structure State.Calm (s : State) : Prop where
  still : s.still = true
  moving : ¬ s.Stuck

/-- No command in the queue could start (R175). -/
def State.Waiting (s : State) : Prop := s.clu.queue = [] ∨ s.responseFull = true

theorem State.settled_iff {s : State} : s.settled = true ↔ s.Calm ∧ s.Waiting := by
  have hstuck : (s.pdu.sweep == .stalled && !s.sweepBlocked) = false ↔ ¬ s.Stuck := by
    simp [State.Stuck]
  have hwaiting : (s.clu.queue.isEmpty || s.responseFull) = true ↔ s.Waiting := by
    simp [State.Waiting]
  rw [← hwaiting]
  constructor
  · intro h
    obtain ⟨h, hqueue⟩ := Bool.and_eq_true_iff.mp h
    obtain ⟨hstill, hsweep⟩ := Bool.and_eq_true_iff.mp h
    exact ⟨⟨hstill, hstuck.mp (by rwa [Bool.not_eq_true'] at hsweep)⟩, hqueue⟩
  · rintro ⟨⟨hstill, hsweep⟩, hqueue⟩
    exact Bool.and_eq_true_iff.mpr ⟨Bool.and_eq_true_iff.mpr ⟨hstill, by rw [hstuck.mpr hsweep]; rfl⟩, hqueue⟩

theorem State.still_iff {s : State} : s.still = true ↔ s.dsu.rotationGood = true ∧ s.takeAllowed = false ∧
    s.moveAllowed = false ∧ s.outageDue = false ∧ (s.dsu.outage = false ∨ s.liveZones = 0) ∧
      ∀ f, s.msu.flush = some f → s.resetDone f = false := by
  have hreset : (match s.msu.flush with | some f => !s.resetDone f | none => true) = true ↔
      ∀ f, s.msu.flush = some f → s.resetDone f = false := by
    cases s.msu.flush <;> simp
  rw [← hreset]
  simp only [State.still, Bool.and_eq_true, Bool.not_eq_true', Bool.and_eq_false_iff, decide_eq_false_iff_not, not_not,
    and_assoc]

/-- The list of waiters counts only for the three kinds that hold back a take or a completion. -/
theorem State.still_congr {s t : State} (hpins : t.pins = s.pins) (hdsu : t.dsu = s.dsu)
    (hflush : t.msu.flush = s.msu.flush) (harbiter : t.arbiterWaits = s.arbiterWaits)
    (hcompletion : t.completionWaits = s.completionWaits) (hclosing : t.resetClosingWaits = s.resetClosingWaits) :
    t.still = s.still := by
  have hlive : t.liveZones = s.liveZones :=
    State.liveZones_congr hpins (congrArg Dsu.service hdsu) (congrArg Dsu.overrides hdsu)
  simp only [State.still, State.takeAllowed, State.moveAllowed, State.outageDue, State.resetDone, State.resetting,
    State.held, hlive, hpins, hdsu, hflush, harbiter, hcompletion, hclosing]

namespace State.Calm
variable {s t : State}

/-- A change of nothing that `State.Calm` reads, or only so that the sweep stays as it was. -/
theorem congr (h : s.Calm) (hstill : t.still = s.still) (hstuck : t.Stuck → s.Stuck) : t.Calm :=
  ⟨hstill.trans h.still, fun ht => h.moving (hstuck ht)⟩

theorem rotation (h : s.Calm) : s.dsu.rotationGood = true := (State.still_iff.mp h.still).1

/-- What every event that touches traffic ends with leaves nothing undone. -/
theorem afterTraffic (hrotation : s.dsu.rotationGood = true) : s.afterTraffic.Calm := by
  obtain ⟨htake, hmove, hdue⟩ := State.afterTraffic_complete hrotation
  refine ⟨State.still_iff.mpr ⟨?_, htake, hmove, hdue, s.afterTraffic_outage_clear,
    fun f hf => State.afterTraffic_reset_undone hf⟩, State.resumeSweep_moving _⟩
  exact (State.Runs.refl s).afterTraffic.dsu.rotation hrotation

/-- The resumption leaves no sweep that could go on stalled, whatever the event did to the extract and the waiters. -/
theorem resumeSweep (h : s.still = true) : s.resumeSweep.Calm := by
  refine ⟨?_, State.resumeSweep_moving s⟩
  obtain ⟨sweep, hs⟩ := s.resumeSweep_eq
  rw [hs]
  exact h

/-! ### The parts of an event that leave the traffic alone -/

theorem raise (h : s.Calm) (k : NoticeKind) : (s.raise k).Calm := by
  obtain ⟨clu, hraise⟩ := s.raise_eq k
  rw [hraise]
  exact h.congr rfl id

theorem respond (h : s.Calm) (r : Response) : (s.respond r).Calm := h.congr rfl id

theorem complete (h : s.Calm) (place : Nat) (result : Result) (params : List Byte) :
    (s.complete place result params).Calm := by
  rcases s.complete_cases place result params with ⟨g, -, -, hc⟩ | ⟨-, hc⟩ <;> rw [hc]
  · exact h.congr rfl id
  · exact h

theorem putLine (h : s.Calm) (n : Fin 4) (l : Line) : (s.putLine n l).Calm := h.congr rfl id

theorem putReceiver (h : s.Calm) (l : Link) (r : Receiver) : (s.putReceiver l r).Calm := by
  cases l <;> exact h.congr rfl id

theorem putRecord (h : s.Calm) (i : Nat) (r : Record) : (s.putRecord i r).Calm := h.congr rfl id

theorem updateRecord (h : s.Calm) (i : Nat) (f : Record → Record) : (s.updateRecord i f).Calm := by
  unfold State.updateRecord
  split
  · exact h.putRecord ..
  · exact h

/-- An entry more blocks the sweep as before, if not more (R161). -/
theorem writeEntry (h : s.Calm) (e : Entry) : (s.writeEntry e).Calm := by
  rcases s.writeEntry_cases e with ⟨-, hw⟩ | ⟨-, hw⟩ <;> rw [hw]
  · refine h.congr rfl fun ⟨hsweep, hfree⟩ => ⟨hsweep, ?_⟩
    rw [State.sweepBlocked_iff, List.length_append] at hfree
    exact State.sweepBlocked_iff.mpr ⟨(Nat.le_add_right ..).trans_lt hfree.1, hfree.2⟩
  · exact h

theorem closeRecord (h : s.Calm) (i : Nat) (r : Record) : (s.closeRecord i r).Calm := by
  have hput := (h.writeEntry (r.entry i false)).putRecord i (r.closePeriod (s.writeEntry (r.entry i false)).pdu.period)
  exact hput.congr rfl id

theorem touch {anew : Bool} {i : Nat} (h : s.Calm) (ht : s.touch anew i = some t) : t.Calm := by
  rcases s.touch_cases anew i with ⟨-, hc⟩ | ⟨r, -, -, hc⟩ | ⟨r, -, -, -, hc⟩ | ⟨r, -, -, -, hc⟩ <;>
    rw [hc] at ht <;> cases ht
  · exact h
  · exact h
  · exact h.closeRecord ..

/-- A command that waits blocks the sweep, and holds back neither a take nor a completion (R164, R165). -/
theorem waitCommand (h : s.Calm) (place : Nat) (c : HeldCommand) : (s.wait false (.command place c)).Calm := by
  refine h.congr (State.still_congr rfl rfl rfl ?_ ?_ ?_) fun ⟨_, hfree⟩ => ?_
  · simp [State.arbiterWaits, State.wait]
  · simp [State.completionWaits, State.wait]
  · simp [State.resetClosingWaits, State.wait]
  · simp [State.sweepBlocked_iff, State.wait] at hfree

/-- A close starts with its sweep stalled only where it may not visit (R159). -/
theorem startClose (h : s.Calm) (c : Cause) : (s.startClose c).Calm := by
  refine raise ?_ _
  refine h.congr rfl fun ⟨hsweep, hfree⟩ => ?_
  have hblocked : s.sweepBlocked = false := hfree
  simp [hblocked] at hsweep

end State.Calm

end Sys2Proof.Machine
end


section
namespace Sys2Proof.Machine
open Sys2Proof

/-! ### The commands that leave the traffic alone -/

namespace State.Calm
variable {s t : State}

theorem takeFormat (h : s.Calm) (code : Byte) (place : Nat) : (takeFormat code place s).1.Calm := by
  unfold Machine.takeFormat
  split
  · exact h
  · split_ifs
    · exact h
    · exact h
    · exact h.congr rfl id

theorem takeAdd (h : s.Calm) (a : AddArgs) : (takeAdd a s).1.Calm := by
  unfold Machine.takeAdd
  split
  next => exact h
  next =>
    split
    next =>
      split_ifs
      · exact h
      · exact h
      · exact h
      · exact h
      · split
        · exact h
        · exact h.congr rfl id
    next => exact h

theorem moveNumber (h : s.Calm) (i old new : Nat) : (s.moveNumber i old new).Calm := by
  unfold State.moveNumber
  split
  · exact h
  · exact h.congr rfl id

theorem moveAddress (h : s.Calm) (i old new : Nat) : (s.moveAddress i old new).Calm := by
  unfold State.moveAddress
  split
  · exact h
  · exact h.congr rfl id

theorem takeAlter (h : s.Calm) (place : Nat) (a : AlterArgs) : (takeAlter false place a s).1.Calm := by
  unfold Machine.takeAlter
  split
  next => exact h
  next =>
    split
    next => exact h
    next =>
      split
      next => exact h
      next i _ =>
        split
        next => exact h
        next r _ =>
          split
          next => exact h
          next =>
            split
            next => exact h
            next =>
              split
              next => exact h.waitCommand ..
              next v hv =>
                have htouched : v.Calm := by
                  split at hv
                  · exact h.touch hv
                  · cases hv; exact h
                split
                · exact htouched
                · exact ((htouched.moveNumber ..).moveAddress ..).putRecord ..

theorem takeSetState (h : s.Calm) (st : RecordState) (number : BitVec 24) : (takeSetState st number s).1.Calm := by
  unfold Machine.takeSetState
  split
  · exact h
  · split
    · exact h
    · exact h.updateRecord ..

theorem takeAdjustBalance (h : s.Calm) (place : Nat) (number : BitVec 24) (amount : BitVec 32) :
    (takeAdjustBalance false place number amount s).1.Calm := by
  unfold Machine.takeAdjustBalance
  split
  next => exact h
  next =>
    split
    next => exact h
    next =>
      split
      next => exact h
      next =>
        split
        next => exact h
        next =>
          split
          next => exact h
          next =>
            split
            next => exact h.waitCommand ..
            next v hv => exact (h.touch hv).updateRecord ..

/-- A TRAFFIC RESET that starts holds back every take and move, and its walk has not ended (R48, R51). -/
theorem takeTrafficReset (h : s.Calm) (place : Nat) : (takeTrafficReset place s).1.Calm := by
  unfold Machine.takeTrafficReset
  split_ifs
  · exact h
  · exact h
  · obtain ⟨hrotation, -, -, -, hzones, -⟩ := State.still_iff.mp h.still
    refine ⟨State.still_iff.mpr ⟨hrotation, ?_, ?_, ?_, hzones, ?_⟩, h.moving⟩
    · simp [State.takeAllowed, State.resetting]
    · simp [State.moveAllowed, State.resetting]
    · simp [State.outageDue, State.resetting]
    · rintro f ⟨⟩
      simp [State.resetDone, Config.slotCount]

theorem takeSetTariff (h : s.Calm) (a : TariffArgs) : (takeSetTariff a s).1.Calm := by
  cases a <;> exact h.congr rfl id

theorem takeSetLine (h : s.Calm) (a : LineArgs) : (takeSetLine a s).1.Calm := by
  unfold Machine.takeSetLine
  split
  · exact h
  · split
    · exact h
    · split
      · exact h
      · exact h.putLine ..

theorem takeEnableLine (h : s.Calm) (line : Byte) : (takeEnableLine line s).1.Calm := by
  unfold Machine.takeEnableLine
  split
  · exact h
  · split
    · exact h
    · exact h.putLine ..

theorem takeDisableLine (h : s.Calm) (line : Byte) : (takeDisableLine line s).1.Calm := by
  unfold Machine.takeDisableLine
  split
  · exact h
  · dsimp only
    split
    · exact h
    · exact h.putLine ..
    · exact h.putLine ..
    · exact h.putLine ..

theorem takeSetArbiter (h : s.Calm) (mode : Byte) : (takeSetArbiter mode s).1.Calm := by
  unfold Machine.takeSetArbiter
  split
  · exact h
  · exact h.congr rfl id

theorem takeSetReturnLink (h : s.Calm) (a : LinkArgs) : (takeSetReturnLink a s).1.Calm := by
  unfold Machine.takeSetReturnLink
  split
  · split_ifs
    · exact h
    · exact h
    · exact h.putReceiver ..
  · exact h

theorem takeEnableReturnLink (h : s.Calm) (link : Byte) : (takeEnableReturnLink link s).1.Calm := by
  unfold Machine.takeEnableReturnLink
  split
  · exact h
  · dsimp only
    split_ifs
    · exact h
    · exact h
    · exact h.putReceiver ..

theorem takeDisableReturnLink (h : s.Calm) (link : Byte) : (takeDisableReturnLink link s).1.Calm := by
  unfold Machine.takeDisableReturnLink
  split
  · exact h
  · dsimp only
    split
    · exact h
    · exact h.putReceiver ..

theorem takeSetTimebase (h : s.Calm) (p : BitVec 16) (e : Byte) : (takeSetTimebase p e s).1.Calm := by
  unfold Machine.takeSetTimebase
  split
  · exact h
  · exact h.congr rfl id

theorem takeSetClose (h : s.Calm) (minute : BitVec 24) (auto : Byte) : (takeSetClose minute auto s).1.Calm := by
  unfold Machine.takeSetClose
  split
  · exact h
  · exact h.congr rfl id

theorem takeClosePeriod (h : s.Calm) : (takeClosePeriod s).1.Calm := by
  unfold Machine.takeClosePeriod
  split
  · exact h
  · exact h.startClose _

theorem takeReadExtract (h : s.Calm) (count : Byte) : (takeReadExtract count s).1.Calm := by
  unfold Machine.takeReadExtract
  split
  · exact h
  · exact resumeSweep (s := { s with pdu := { s.pdu with extract := s.pdu.extract.drop count.toNat } }) h.still

theorem takeReadNotices (h : s.Calm) (count : Byte) : (takeReadNotices count s).1.Calm := by
  unfold Machine.takeReadNotices
  split
  · exact h
  · exact h.congr rfl id

/-! #### Commands that only read -/

theorem takeFindNumber (h : s.Calm) (number : BitVec 24) : (takeFindNumber number s).1.Calm := by
  unfold Machine.takeFindNumber; split_ifs <;> exact h

theorem takeFindAddress (h : s.Calm) (address : BitVec 24) : (takeFindAddress address s).1.Calm := by
  unfold Machine.takeFindAddress; split_ifs <;> exact h

theorem takeReadRecord (h : s.Calm) (index : BitVec 16) : (takeReadRecord index s).1.Calm := by
  unfold Machine.takeReadRecord; split_ifs <;> exact h

theorem takeReadMessage (h : s.Calm) (reference : BitVec 16) : (takeReadMessage reference s).1.Calm := by
  unfold Machine.takeReadMessage
  split
  · exact h
  · split <;> exact h

theorem takeLineStatus (h : s.Calm) (line : Byte) : (takeLineStatus line s).1.Calm := by
  unfold Machine.takeLineStatus; split <;> exact h

/-! ### Starts -/

section
variable {code tag : Byte} {take : Nat → State → State × Reply}

theorem start (h : s.Calm) (ht : ∀ place, (take place s).1.Calm) : (s.start code tag take).Calm := by
  cases hf : s.responseFull
  · cases hr : take s.freshPlace s with
    | mk t reply =>
      have hk := ht s.freshPlace
      rw [hr] at hk
      cases reply with
      | now result params => rw [State.start_now hf hr]; exact hk.respond _
      | later => rw [State.start_later hf hr]; exact hk.congr rfl id
  · rwa [State.start_full hf]

/-- A command on the traffic may leave anything to do: what its event ends with does it. -/
theorem startTraffic (h : s.Calm) (ht : ∀ place, State.Works none s (take place s).1) :
    (s.startTraffic code tag take).Calm := by
  unfold State.startTraffic
  split
  · exact h
  · exact afterTraffic ((State.Runs.start ht).dsu.rotation h.rotation)

end

/-- Every host command leaves nothing undone when it is started. -/
theorem startHost (h : s.Calm) (i : Instr) : (startHost i s).Calm := by
  have hw := State.Works.refl none s
  cases i with
  | format => exact h.start fun _ => h.takeFormat ..
  | add => exact h.start fun _ => h.takeAdd _
  | alter => exact h.start fun _ => h.takeAlter ..
  | suspend => exact h.start fun _ => h.takeSetState ..
  | resume => exact h.start fun _ => h.takeSetState ..
  | retire => exact h.startTraffic fun _ => hw.takeRetire ..
  | findNumber => exact h.start fun _ => h.takeFindNumber _
  | findAddress => exact h.start fun _ => h.takeFindAddress _
  | readRecord => exact h.start fun _ => h.takeReadRecord _
  | cancel => exact h.startTraffic fun _ => hw.takeCancel ..
  | readMessage => exact h.start fun _ => h.takeReadMessage _
  | trafficReset => exact h.start fun _ => h.takeTrafficReset _
  | setTariff => exact h.start fun _ => h.takeSetTariff _
  | readTariff => exact h.start (take := fun _ => takeReadTariff) fun _ => h
  | adjustBalance => exact h.start fun _ => h.takeAdjustBalance ..
  | setLine => exact h.start fun _ => h.takeSetLine _
  | enableLine => exact h.start fun _ => h.takeEnableLine _
  | disableLine => exact h.start fun _ => h.takeDisableLine _
  | lineStatus => exact h.start fun _ => h.takeLineStatus _
  | submit => exact h.startTraffic fun _ => hw.takeSubmit ..
  | setZones _ zones => exact h.startTraffic (take := fun _ => takeSetZones zones) fun _ => hw.withTraffic rfl rfl rfl
  | setOverride => exact h.startTraffic fun _ => hw.takeSetOverride ..
  | zoneStatus => exact h.start (take := fun _ => takeZoneStatus) fun _ => h
  | setTransmitter _ d => exact h.start (take := fun _ => takeSetTransmitter d) fun _ => h.congr rfl id
  | holdDispatch => exact h.startTraffic fun _ => hw.takeHoldDispatch _
  | setArbiter => exact h.start fun _ => h.takeSetArbiter _
  | dispatchStatus => exact h.start (take := fun _ => takeDispatchStatus) fun _ => h
  | setReturnLink => exact h.start fun _ => h.takeSetReturnLink _
  | enableReturnLink => exact h.start fun _ => h.takeEnableReturnLink _
  | disableReturnLink => exact h.start fun _ => h.takeDisableReturnLink _
  | setRetry _ w0 aMax hold => exact h.start (take := fun _ => takeSetRetry w0 aMax hold) fun _ => h.congr rfl id
  | returnStatus => exact h.start (take := fun _ => takeReturnStatus) fun _ => h
  | setTimebase => exact h.start fun _ => h.takeSetTimebase ..
  | setClock _ minute => exact h.start (take := fun _ => takeSetClock minute) fun _ => h.congr rfl id
  | setClose => exact h.start fun _ => h.takeSetClose ..
  | closePeriod => exact h.start fun _ => h.takeClosePeriod
  | readExtract => exact h.start fun _ => h.takeReadExtract _
  | periodStatus => exact h.start (take := fun _ => takePeriodStatus) fun _ => h
  | status => exact h.start (take := fun _ => takeStatus) fun _ => h
  | readNotices => exact h.start fun _ => h.takeReadNotices _
  | _ => exact h

end State.Calm

end Sys2Proof.Machine
end


section
namespace Sys2Proof.Machine
open Sys2Proof

/-! ### The events that take no command from the queue -/

namespace State.Calm
variable {s : State}

theorem completeFormat (h : s.Calm) : s.completeFormat.Calm := by
  unfold State.completeFormat
  dsimp only
  split
  · refine complete ?_ _ _ _
    exact h.congr rfl id
  · exact h.congr rfl id

/-- A waiting acceptance that is withdrawn holds back neither a take nor a completion. -/
theorem erase_line_still (s : State) (n : Fin 4) : (s.offList (s.pdu.waiters.erase (.line n))).still = s.still := by
  have hmem : ∀ {w : Waiter}, w ≠ .line n → (w ∈ s.pdu.waiters.erase (.line n) ↔ w ∈ s.pdu.waiters) :=
    fun hw => List.mem_erase_of_ne hw
  refine State.still_congr rfl rfl rfl ?_ ?_ ?_ <;> rw [Bool.eq_iff_iff]
  · rw [State.arbiterWaits_iff, State.arbiterWaits_iff]
    exact hmem (by simp)
  · rw [State.completionWaits_iff, State.completionWaits_iff]
    exact hmem (by simp)
  · rw [State.resetClosingWaits_iff, State.resetClosingWaits_iff]
    exact exists_congr fun i => or_congr (hmem (by simp)) (hmem (by simp))

/-- The third break may let a stalled sweep resume, which it does (R83, R161). -/
theorem lineDown (h : s.Calm) (n : Fin 4) : (s.lineDown n).Calm := by
  have hoff : (s.offList (s.pdu.waiters.erase (.line n))).still = true := (erase_line_still s n).trans h.still
  unfold State.lineDown
  dsimp only
  refine resumeSweep ?_
  split
  · exact hoff
  · obtain ⟨clu, hraise⟩ := State.raise_eq
      ((s.offList (s.pdu.waiters.erase (.line n))).putLine n (s.line n).goDown) (.lineDown n)
    exact (congrArg State.still hraise).trans hoff

theorem intakeCharacter (h : s.Calm) (n : Fin 4) (data : Byte) (mark parity stop : Bool) :
    (s.intakeCharacter n data mark parity stop).Calm := by
  by_cases hdisabled : (s.line n).state = .disabled
  · rw [State.intakeCharacter_disabled hdisabled]; exact h
  by_cases hdown : (s.line n).state = .down
  · rw [State.intakeCharacter_down hdown]
    split
    · exact h
    · exact (h.putLine ..).raise _
  · rw [State.intakeCharacter_busy hdisabled hdown]
    split
    · exact (h.putLine ..).lineDown n
    · exact h.putLine ..

theorem offerReport (h : s.Calm) (l : Link) (rep : Report) : (s.offerReport l rep).Calm := by
  unfold State.offerReport
  dsimp only
  split
  · exact h.putReceiver ..
  · split
    · exact h.putReceiver ..
    · exact (h.putReceiver ..).raise _

theorem returnCharacter (h : s.Calm) (l : Link) (data : Byte) (bad : Bool) : (s.returnCharacter l data bad).Calm := by
  unfold State.returnCharacter
  dsimp only
  split
  · exact h
  · split
    · exact h.putReceiver ..
    · exact h
  · split
    · unfold State.endReport
      dsimp only
      split
      · exact (h.putReceiver ..).offerReport ..
      · exact h.putReceiver ..
    · exact h.putReceiver ..

theorem countTick (h : s.Calm) : s.countTick.Calm := h.congr rfl id

theorem advanceMinute (h : s.Calm) : s.advanceMinute.Calm := by
  have hminute : State.Calm { s with pdu := { s.pdu with
      tickMinute := 0, minute := (s.pdu.minute + 1) % Config.minuteModulus } } := h.congr rfl id
  unfold State.advanceMinute
  dsimp only
  split_ifs
  · exact hminute.raise _
  · exact hminute.startClose _
  · exact hminute

theorem advanceSweep (h : s.Calm) : s.advanceSweep.Calm := h.congr rfl id

/-- The test before a visit stalls the sweep only where it may not visit (R161). -/
theorem sweepVisit (h : s.Calm) : s.sweepVisit.Calm := by
  unfold State.sweepVisit
  split
  next hblocked =>
    refine h.congr rfl fun ⟨_, hfree⟩ => ?_
    have hfree' : s.sweepBlocked = false := hfree
    rw [hblocked] at hfree'
    cases hfree'
  next =>
    unfold State.visit
    split_ifs
    · refine raise ?_ _
      refine h.congr rfl fun ⟨hsweep, _⟩ => ?_
      cases hsweep
    · exact h.advanceSweep
    · split
      · exact h.advanceSweep
      · split
        · exact h.advanceSweep
        · exact (h.closeRecord ..).advanceSweep

/-- The reset state has no traffic at all. -/
theorem reset (p : Pins) (pending : List Instr) : (State.afterReset p pending).Calm := by
  refine ⟨State.still_iff.mpr ⟨rfl, rfl, rfl, ?_, .inl rfl, fun f hf => by cases hf⟩, fun ⟨hsweep, _⟩ => by cases hsweep⟩
  rw [← Bool.not_eq_true, State.outageDue_iff_conditions]
  rintro ⟨-, -, -, hqueues, -⟩
  exact hqueues rfl

end State.Calm

/-- The end of an event that touches traffic leaves as many responses and places held as the event did. -/
theorem State.afterTraffic_load (s : State) : s.afterTraffic.clu.load = s.clu.load := by
  obtain ⟨-, hprogress, hresponses⟩ := s.afterTraffic_commands
  calc s.afterTraffic.clu.load = s.completeReset.clu.load := by rw [Clu.load, hprogress, hresponses, Clu.load]
    _ = s.clu.load := (State.Works.refl none s).completeReset.load

theorem State.lineDown_load (s : State) (n : Fin 4) : (s.lineDown n).clu.load = s.clu.load := by
  unfold State.lineDown
  dsimp only
  rw [State.resumeSweep_clu]
  split
  · rfl
  · exact ((State.Works.refl none _).raise _).load

theorem State.intakeCharacter_load (s : State) (n : Fin 4) (data : Byte) (mark parity stop : Bool) :
    (s.intakeCharacter n data mark parity stop).clu.load = s.clu.load := by
  by_cases hdisabled : (s.line n).state = .disabled
  · rw [State.intakeCharacter_disabled hdisabled]
  by_cases hdown : (s.line n).state = .down
  · rw [State.intakeCharacter_down hdown]
    split
    · rfl
    · exact ((State.Works.refl none _).raise _).load
  · rw [State.intakeCharacter_busy hdisabled hdown]
    split
    · exact State.lineDown_load ..
    · rfl

/-- An event of the part that takes no command from the queue ends in `t` with nothing undone. -/
structure State.Ends (s t : State) : Prop where
  calm : t.Calm
  load : t.clu.load = s.clu.load
  queue : t.clu.queue = s.clu.queue

namespace State.Ends
variable {k : Option Once} {s t u : State}

theorem refl (h : s.Calm) : s.Ends s := ⟨h, rfl, rfl⟩

theorem of_works (hw : State.Works k s t) (h : t.Calm) : s.Ends t := ⟨h, hw.load, hw.queue⟩

theorem afterTraffic (hw : State.Works k s t) (h : s.Calm) : s.Ends t.afterTraffic :=
  ⟨.afterTraffic (hw.dsu.rotation h.rotation), t.afterTraffic_load.trans hw.load,
    (State.Runs.refl t).afterTraffic.queue.trans hw.queue⟩

/-- A command that could not start cannot start then (R175). -/
theorem waiting (h : s.Ends t) (hs : s.Waiting) : t.Waiting := by
  rcases hs with hempty | hfull
  · exact .inl (h.queue.trans hempty)
  · rw [State.responseFull_iff, ← h.load, ← State.responseFull_iff] at hfull
    exact .inr hfull

theorem intakeCharacter (h : s.Calm) (n : Fin 4) (data : Byte) (mark parity stop : Bool) :
    s.Ends (s.intakeCharacter n data mark parity stop) :=
  ⟨h.intakeCharacter .., s.intakeCharacter_load .., (State.Runs.intakeCharacter ..).queue⟩

theorem waiterTurn (h : s.Calm) : s.Ends s.waiterTurn := by
  unfold State.waiterTurn
  split
  next => exact .refl h
  next w rest hlist =>
    split
    next =>
      have hwork := (State.Works.refl none (s.offList rest)).takeAnew w
      exact ⟨.afterTraffic (hwork.dsu.rotation h.rotation), (State.afterTraffic_load _).trans hwork.load,
        (State.Runs.refl _).afterTraffic.queue.trans hwork.queue⟩
    next => exact .refl h

theorem minuteTick (h : s.Calm) : s.Ends s.minuteTick := by
  have hw := (State.Works.refl none s.countTick).advanceMinute
  exact ⟨h.countTick.advanceMinute, hw.load, hw.queue⟩

theorem tickEvent (h : s.Calm) : s.Ends s.tickEvent := by
  unfold State.tickEvent
  split
  · exact minuteTick h
  · exact ⟨h.countTick.congr rfl id, rfl, rfl⟩

/-- Every event of the part but the reset, the end of an exchange and the start of a command. -/
theorem execEvent {i : Instr} (h : s.Calm) (hi : i.commandCode.isSome = false) (hreset : i ≠ .hardwareReset)
    (hend : ∀ mosi, i ≠ .exchangeEnd mosi) (hstart : i ≠ .commandStart) (ht : exec i s = .next t) : s.Ends t := by
  have hw := State.Works.refl none s
  have either : ∀ {c : Prop} [Decidable c] {u : State}, s.Ends u → s.Ends (if c then u else s) := by
    intro c _ u hu; split
    · exact hu
    · exact .refl h
  cases i <;> cases hi <;> cases ht
  case hardwareReset => exact absurd rfl hreset
  case exchangeEnd mosi => exact absurd rfl (hend mosi)
  case commandStart => exact absurd rfl hstart
  case exchangeBegin => exact either ⟨h.congr rfl id, rfl, rfl⟩
  case statusByteReadOut =>
    unfold State.readOutStatus
    split
    · split
      · exact .refl h
      · exact ⟨h.congr rfl id, rfl, rfl⟩
    · exact .refl h
  case formatCompletion => exact either (of_works hw.completeFormat h.completeFormat)
  case flushWalkStep => exact either (afterTraffic (hw.flushStep false) h)
  case intakeCharacterReceived => exact intakeCharacter h ..
  case characterTaken => exact either ⟨h.putLine .., rfl, rfl⟩
  case interCharacterTimerExpiry => exact either ⟨h.putLine .., rfl, rfl⟩
  case pollSent n =>
    dsimp only
    split
    · exact .refl h
    · exact ⟨h.putLine .., rfl, rfl⟩
  case stationWaitExpiry => exact either ⟨h.putLine .., rfl, rfl⟩
  case replyComplete => exact either ⟨h.putLine .., rfl, rfl⟩
  case acceptance n => exact either (afterTraffic (hw.acceptLine false n) h)
  case arbiterTake => exact either (afterTraffic (hw.take false) h)
  case moveToSending => exact either (afterTraffic hw.move h)
  case frameCompletion => exact either (afterTraffic (hw.completeFrame false) h)
  case readyChange => exact afterTraffic (hw.withPins _) h
  case rejectRise => exact ⟨h.congr rfl id, rfl, rfl⟩
  case eholdChange => exact afterTraffic (hw.withPins _) h
  case zoneStatusChange => exact afterTraffic (hw.withPins _) h
  case returnCharacterReceived => exact of_works (hw.returnCharacter ..) (h.returnCharacter ..)
  case reportTimeout l => exact either (of_works (hw.timeOutReport l) (h.putReceiver ..))
  case reportTaken l => exact either (afterTraffic (hw.takeReport false l) h)
  case expiry => exact either (afterTraffic (hw.expire false) h)
  case tick => exact tickEvent h
  case minuteAdvance => exact either (minuteTick h)
  case sweepVisit => exact either (of_works hw.sweepVisit h.sweepVisit)
  case extractWaiterTurn => exact waiterTurn h

end State.Ends

end Sys2Proof.Machine
end


section
namespace Sys2Proof.Machine
open Sys2Proof

/-! ### The events that take commands from the queue -/

namespace State.Calm
variable {s : State}

theorem startFrame (h : s.Calm) (f : CommandFrame) : (s.startFrame f).Calm := by
  unfold State.startFrame
  split
  · exact h.respond _
  · exact h.respond _
  · split
    · exact h.respond _
    · exact h.startHost _

theorem startHead (h : s.Calm) : s.startHead.Calm := by
  unfold State.startHead
  split
  next f rest _ =>
    split
    · exact h
    · exact startFrame (s := { s with clu := { s.clu with queue := rest } }) (h.congr rfl id) f
  next => exact h

theorem startQueued (h : s.Calm) (k : Nat) : (startQueued k s).Calm := by
  induction k generalizing s with
  | zero => exact h
  | succ k ih =>
    unfold Machine.startQueued
    split
    · exact h
    · exact ih h.startHead

end State.Calm

/-- A command that starts takes no further frame from the queue. -/
theorem State.startFrame_queue (s : State) (f : CommandFrame) : (s.startFrame f).clu.queue = s.clu.queue := by
  unfold State.startFrame
  split
  · rfl
  · rfl
  · split
    · rfl
    · exact (State.Runs.startHost s _).queue

theorem State.startHead_queue {s : State} (hfull : s.responseFull = false) :
    s.startHead.clu.queue = s.clu.queue.tail := by
  unfold State.startHead
  split
  next f rest hqueue => rw [if_neg (by simp [hfull]), State.startFrame_queue, hqueue, List.tail_cons]
  next hqueue => rw [hqueue, List.tail_nil]

/-- The starts end with no command left that could start: each takes one frame from the queue (R175). -/
theorem startQueued_waiting {s : State} {k : Nat} (hk : s.clu.queue.length ≤ k) : (startQueued k s).Waiting := by
  induction k generalizing s with
  | zero => exact .inl (List.length_eq_zero_iff.mp (Nat.le_zero.mp hk))
  | succ k ih =>
    unfold startQueued
    split
    next hidle =>
      rw [Bool.or_eq_true, List.isEmpty_iff] at hidle
      exact hidle
    next hbusy =>
      rw [Bool.or_eq_true, not_or, Bool.not_eq_true, Bool.not_eq_true] at hbusy
      refine ih ?_
      rw [State.startHead_queue hbusy.2, List.length_tail]
      omega

namespace State
variable {s t : State}

theorem startWaiting_settled (h : s.Calm) : s.startWaiting.Calm ∧ s.startWaiting.Waiting :=
  ⟨h.startQueued _, startQueued_waiting le_rfl⟩

theorem removeResponse_settled (h : s.Calm) : s.removeResponse.Calm ∧ s.removeResponse.Waiting :=
  startWaiting_settled (h.congr rfl id)

theorem dropFrame_settled (h : s.Calm) (hs : s.Waiting) : s.dropFrame.Calm ∧ s.dropFrame.Waiting :=
  ⟨h.congr rfl id, hs⟩

theorem receiveFrame_settled (h : s.Calm) (hs : s.Waiting) (bytes : List Byte) :
    (s.receiveFrame bytes).Calm ∧ (s.receiveFrame bytes).Waiting := by
  unfold State.receiveFrame
  split
  · exact dropFrame_settled h hs
  · split_ifs
    · exact ⟨h, hs⟩
    · exact dropFrame_settled h hs
    · split
      · unfold State.offerFrame
        split
        · exact startWaiting_settled (h.congr rfl id)
        · exact dropFrame_settled h hs
      · exact dropFrame_settled h hs

theorem endExchange_settled (h : s.Calm) (hs : s.Waiting) (x : Exchange) (mosi : List Byte) :
    (s.endExchange x mosi).Calm ∧ (s.endExchange x mosi).Waiting := by
  have hoff : s.offExchange.Calm := h.congr rfl id
  unfold State.endExchange
  dsimp only
  split
  · obtain ⟨hcalm, hwaiting⟩ := removeResponse_settled hoff
    exact receiveFrame_settled hcalm hwaiting mosi
  · exact receiveFrame_settled (s := s.offExchange) hoff hs mosi

/-- A command given as its own row leaves the queue as it is, and does not start where a queued one could not (R175). -/
theorem startHost_waiting (hs : s.Waiting) {i : Instr} (hi : i.commandCode.isSome = true) :
    (startHost i s).Waiting := by
  rcases hs with hempty | hfull
  · exact .inl ((State.Runs.startHost s i).queue.trans hempty)
  · rw [startHost_full hi hfull]
    exact .inr hfull

theorem startHead_waiting (hs : s.Waiting) : s.startHead = s := by
  rcases hs with hempty | hfull
  · unfold State.startHead
    rw [hempty]
  · exact State.startHead_full hfull

theorem exec_settled {i : Instr} (h : s.Calm) (hs : s.Waiting) (ht : exec i s = .next t) : t.Calm ∧ t.Waiting := by
  cases hi : i.commandCode.isSome with
  | true =>
    rw [exec_of_host s hi] at ht
    cases ht
    exact ⟨h.startHost i, startHost_waiting hs hi⟩
  | false =>
    by_cases hreset : i = .hardwareReset
    · subst hreset
      cases ht
      exact ⟨.reset .., .inl rfl⟩
    by_cases hend : ∃ mosi, i = .exchangeEnd mosi
    · obtain ⟨mosi, rfl⟩ := hend
      cases ht
      split
      · exact endExchange_settled h hs ..
      · exact ⟨h, hs⟩
    by_cases hstart : i = .commandStart
    · subst hstart
      cases ht
      rw [startHead_waiting hs]
      exact ⟨h, hs⟩
    have hends := Ends.execEvent h hi hreset (not_exists.mp hend) hstart ht
    exact ⟨hends.calm, hends.waiting hs⟩

end State

/-- Settles O10: an event that touches traffic makes at its end all that has become possible
(`State.Calm.afterTraffic`), every other leaves the traffic and the sweep with nothing to do as they were
(`State.Calm.congr`), and the commands start until none is left that could (`startQueued_waiting`). -/
theorem stepLeavesNothingUndone : Obligations.StepLeavesNothingUndone := by
  intro s t hs hstep
  obtain ⟨hcalm, hwaiting⟩ := State.settled_iff.mp hs
  unfold step at hstep
  split at hstep
  next =>
    cases hstep
    exact hs
  next i rest _ =>
    have hoff : State.Calm { s with pending := rest } := hcalm.congr rfl id
    exact State.settled_iff.mpr (State.exec_settled hoff hwaiting hstep)

end Sys2Proof.Machine
end
